-- ==== Sys2Proof/Word.lean ====
section
/-! DEFINITION. The word types of the CORE: bytes, 16-bit words, the fields of an instruction word and register
indices (00_scope.md R6, R7; 30_encoding.md R81). Every value is unsigned (R7). -/

namespace Sys2Proof

/-- One byte of memory or one general register, 8 bits unsigned (R20, R61). -/
abbrev Byte := BitVec 8

/-- A 16-bit word: an instruction word, I, pc or a stack slot (R24, R26, R29, R80). -/
abbrev Word := BitVec 16

/-- The 4-bit immediate field n (R81). -/
abbrev Nibble := BitVec 4

/-- The 12-bit address field nnn (R81). -/
abbrev Addr := BitVec 12

/-- The index of a general register V0 to VF (R20): fields x and y name it for every value 0 to 15 (R85). -/
abbrev Reg := Fin 16

/-- A key code 0x0 to 0xF (R35). -/
abbrev Key := Fin 16

/-- VF, the register that doubles as the flag (R8, R22). -/
abbrev vF : Reg := 15

end Sys2Proof
end

