-- ==== Sys2Proof/Syntax.lean ====
section
/-! DEFINITION. The instructions of the CORE as syntax: one constructor per row of spec/opcode_table.json, in the table's
order (30_encoding.md R87). An operand's type is exactly its field (R83 to R85), so every term is well formed. -/

namespace Sys2Proof

/-- The 34 operations (R87). Operands: x and y are register indices, nn an 8-bit immediate, nnn a 12-bit address,
n a 4-bit count. -/
inductive Instr where
  /-- 00E0, CLS (R190). -/
  | cls
  /-- 00EE, RET (R120). -/
  | ret
  /-- 1NNN, JP addr (R122). -/
  | jp (nnn : Addr)
  /-- 2NNN, CALL addr (R121). -/
  | call (nnn : Addr)
  /-- 3XNN, SE Vx, byte (R124). -/
  | seByte (x : Reg) (nn : Byte)
  /-- 4XNN, SNE Vx, byte (R125). -/
  | sneByte (x : Reg) (nn : Byte)
  /-- 5XY0, SE Vx, Vy (R126). -/
  | seReg (x y : Reg)
  /-- 9XY0, SNE Vx, Vy (R127). -/
  | sneReg (x y : Reg)
  /-- 6XNN, LD Vx, byte (R141). -/
  | ldByte (x : Reg) (nn : Byte)
  /-- 7XNN, ADD Vx, byte (R142). -/
  | addByte (x : Reg) (nn : Byte)
  /-- 8XY0, LD Vx, Vy (R143). -/
  | ldReg (x y : Reg)
  /-- 8XY1, OR Vx, Vy (R144). -/
  | orReg (x y : Reg)
  /-- 8XY2, AND Vx, Vy (R145). -/
  | andReg (x y : Reg)
  /-- 8XY3, XOR Vx, Vy (R146). -/
  | xorReg (x y : Reg)
  /-- 8XY4, ADD Vx, Vy (R147). -/
  | addReg (x y : Reg)
  /-- 8XY5, SUB Vx, Vy (R148). -/
  | subReg (x y : Reg)
  /-- 8XY6, SHR Vx with an encoded y that is not read (R149). -/
  | shr (x y : Reg)
  /-- 8XY7, SUBN Vx, Vy (R150). -/
  | subnReg (x y : Reg)
  /-- 8XYE, SHL Vx with an encoded y that is not read (R151). -/
  | shl (x y : Reg)
  /-- ANNN, LD I, addr (R170). -/
  | ldI (nnn : Addr)
  /-- BNNN, JP V0, addr (R123). -/
  | jpV0 (nnn : Addr)
  /-- CXNN, RND Vx, byte (R152). -/
  | rnd (x : Reg) (nn : Byte)
  /-- DXYN, DRW Vx, Vy, nibble (R191). -/
  | drw (x y : Reg) (n : Nibble)
  /-- EX9E, SKP Vx (R210). -/
  | skp (x : Reg)
  /-- EXA1, SKNP Vx (R211). -/
  | sknp (x : Reg)
  /-- FX07, LD Vx, DT (R214). -/
  | ldFromDt (x : Reg)
  /-- FX15, LD DT, Vx (R215). -/
  | ldToDt (x : Reg)
  /-- FX18, LD ST, Vx (R216). -/
  | ldToSt (x : Reg)
  /-- FX0A, LD Vx, K (R213). -/
  | ldKey (x : Reg)
  /-- FX1E, ADD I, Vx (R171). -/
  | addI (x : Reg)
  /-- FX29, LD F, Vx (R172). -/
  | ldFont (x : Reg)
  /-- FX33, LD B, Vx (R173). -/
  | ldBcd (x : Reg)
  /-- FX55, LD [I], Vx (R174). -/
  | storeRegs (x : Reg)
  /-- FX65, LD Vx, [I] (R175). -/
  | loadRegs (x : Reg)
  deriving DecidableEq, Repr

end Sys2Proof
end

