-- ==== Sys2Proof/WellFormed.lean ====
section
/-! DEFINITION. Well-formedness of an instruction word: it matches a row of the opcode map (30_encoding.md R87, R90).
An `Instr` term needs no check of its own: the types of its operands are exactly the fields of R83 to R85 (log 29). -/

namespace Sys2Proof

/-- One row of the opcode map: a word w names it exactly when (w AND mask) = pattern (R87). -/
structure OpRow where
  pattern : Word
  mask : Word
  mnemonic : String
  deriving DecidableEq, Repr

/-- Rows 1 to 8: clear, return, jumps, call, register skips. (R87) -/
def controlRows : List OpRow :=
  [⟨0x00E0, 0xFFFF, "CLS"⟩,
   ⟨0x00EE, 0xFFFF, "RET"⟩,
   ⟨0x1000, 0xF000, "JP_addr"⟩,
   ⟨0x2000, 0xF000, "CALL_addr"⟩,
   ⟨0x3000, 0xF000, "SE_Vx__byte"⟩,
   ⟨0x4000, 0xF000, "SNE_Vx__byte"⟩,
   ⟨0x5000, 0xF00F, "SE_Vx__Vy"⟩,
   ⟨0x9000, 0xF00F, "SNE_Vx__Vy"⟩]

/-- Rows 9 to 19: immediate loads and group 8. (R87) -/
def registerRows : List OpRow :=
  [⟨0x6000, 0xF000, "LD_Vx__byte"⟩,
   ⟨0x7000, 0xF000, "ADD_Vx__byte"⟩,
   ⟨0x8000, 0xF00F, "LD_Vx__Vy"⟩,
   ⟨0x8001, 0xF00F, "OR_Vx__Vy"⟩,
   ⟨0x8002, 0xF00F, "AND_Vx__Vy"⟩,
   ⟨0x8003, 0xF00F, "XOR_Vx__Vy"⟩,
   ⟨0x8004, 0xF00F, "ADD_Vx__Vy"⟩,
   ⟨0x8005, 0xF00F, "SUB_Vx__Vy"⟩,
   ⟨0x8006, 0xF00F, "SHR_Vx____Vy"⟩,
   ⟨0x8007, 0xF00F, "SUBN_Vx__Vy"⟩,
   ⟨0x800E, 0xF00F, "SHL_Vx____Vy"⟩]

/-- Rows 20 to 25: groups A to E. (R87) -/
def indexDisplayRows : List OpRow :=
  [⟨0xA000, 0xF000, "LD_I__addr"⟩,
   ⟨0xB000, 0xF000, "JP_V0__addr"⟩,
   ⟨0xC000, 0xF000, "RND_Vx__byte"⟩,
   ⟨0xD000, 0xF000, "DRW_Vx__Vy__nibble"⟩,
   ⟨0xE09E, 0xF0FF, "SKP_Vx"⟩,
   ⟨0xE0A1, 0xF0FF, "SKNP_Vx"⟩]

/-- Rows 26 to 34: group F. (R87) -/
def keyTimerMemoryRows : List OpRow :=
  [⟨0xF007, 0xF0FF, "LD_Vx__DT"⟩,
   ⟨0xF015, 0xF0FF, "LD_DT__Vx"⟩,
   ⟨0xF018, 0xF0FF, "LD_ST__Vx"⟩,
   ⟨0xF00A, 0xF0FF, "LD_Vx__K"⟩,
   ⟨0xF01E, 0xF0FF, "ADD_I__Vx"⟩,
   ⟨0xF029, 0xF0FF, "LD_F__Vx"⟩,
   ⟨0xF033, 0xF0FF, "LD_B__Vx"⟩,
   ⟨0xF055, 0xF0FF, "LD__I___Vx"⟩,
   ⟨0xF065, 0xF0FF, "LD_Vx___I"⟩]

/-- The opcode map, in the order of the source's dispatcher table (R87). -/
def opcodeTable : List OpRow :=
  controlRows ++ registerRows ++ indexDisplayRows ++ keyTimerMemoryRows

/-- The word w names the row (R87). -/
def OpRow.names (r : OpRow) (w : Word) : Bool :=
  w &&& r.mask == r.pattern

/-- A word is well formed when it names a row; every other word is invalid (R90). -/
def wordWellFormed (w : Word) : Bool :=
  opcodeTable.any (fun r => r.names w)

/-- The row a constructor stands for (R87). -/
def Instr.row : Instr → OpRow
  | .cls => ⟨0x00E0, 0xFFFF, "CLS"⟩
  | .ret => ⟨0x00EE, 0xFFFF, "RET"⟩
  | .jp _ => ⟨0x1000, 0xF000, "JP_addr"⟩
  | .call _ => ⟨0x2000, 0xF000, "CALL_addr"⟩
  | .seByte _ _ => ⟨0x3000, 0xF000, "SE_Vx__byte"⟩
  | .sneByte _ _ => ⟨0x4000, 0xF000, "SNE_Vx__byte"⟩
  | .seReg _ _ => ⟨0x5000, 0xF00F, "SE_Vx__Vy"⟩
  | .sneReg _ _ => ⟨0x9000, 0xF00F, "SNE_Vx__Vy"⟩
  | .ldByte _ _ => ⟨0x6000, 0xF000, "LD_Vx__byte"⟩
  | .addByte _ _ => ⟨0x7000, 0xF000, "ADD_Vx__byte"⟩
  | .ldReg _ _ => ⟨0x8000, 0xF00F, "LD_Vx__Vy"⟩
  | .orReg _ _ => ⟨0x8001, 0xF00F, "OR_Vx__Vy"⟩
  | .andReg _ _ => ⟨0x8002, 0xF00F, "AND_Vx__Vy"⟩
  | .xorReg _ _ => ⟨0x8003, 0xF00F, "XOR_Vx__Vy"⟩
  | .addReg _ _ => ⟨0x8004, 0xF00F, "ADD_Vx__Vy"⟩
  | .subReg _ _ => ⟨0x8005, 0xF00F, "SUB_Vx__Vy"⟩
  | .shr _ _ => ⟨0x8006, 0xF00F, "SHR_Vx____Vy"⟩
  | .subnReg _ _ => ⟨0x8007, 0xF00F, "SUBN_Vx__Vy"⟩
  | .shl _ _ => ⟨0x800E, 0xF00F, "SHL_Vx____Vy"⟩
  | .ldI _ => ⟨0xA000, 0xF000, "LD_I__addr"⟩
  | .jpV0 _ => ⟨0xB000, 0xF000, "JP_V0__addr"⟩
  | .rnd _ _ => ⟨0xC000, 0xF000, "RND_Vx__byte"⟩
  | .drw _ _ _ => ⟨0xD000, 0xF000, "DRW_Vx__Vy__nibble"⟩
  | .skp _ => ⟨0xE09E, 0xF0FF, "SKP_Vx"⟩
  | .sknp _ => ⟨0xE0A1, 0xF0FF, "SKNP_Vx"⟩
  | .ldFromDt _ => ⟨0xF007, 0xF0FF, "LD_Vx__DT"⟩
  | .ldToDt _ => ⟨0xF015, 0xF0FF, "LD_DT__Vx"⟩
  | .ldToSt _ => ⟨0xF018, 0xF0FF, "LD_ST__Vx"⟩
  | .ldKey _ => ⟨0xF00A, 0xF0FF, "LD_Vx__K"⟩
  | .addI _ => ⟨0xF01E, 0xF0FF, "ADD_I__Vx"⟩
  | .ldFont _ => ⟨0xF029, 0xF0FF, "LD_F__Vx"⟩
  | .ldBcd _ => ⟨0xF033, 0xF0FF, "LD_B__Vx"⟩
  | .storeRegs _ => ⟨0xF055, 0xF0FF, "LD__I___Vx"⟩
  | .loadRegs _ => ⟨0xF065, 0xF0FF, "LD_Vx___I"⟩

end Sys2Proof
end

