-- ==== Sys2Proof/Decode.lean ====
section
/-! DEFINITION. The decoder, total on any bytes, and after it the encoder (30_encoding.md R80 to R90). -/

namespace Sys2Proof

/-! ### Fields (R81): bit masking without side effects -/

/-- group = w[15:12], which selects the dispatch entry. -/
def fieldGroup (w : Word) : BitVec 4 := w.extractLsb' 12 4

/-- x = w[11:8], register index operand 1. -/
def fieldX (w : Word) : Reg := (w.extractLsb' 8 4).toFin

/-- y = w[7:4], register index operand 2. -/
def fieldY (w : Word) : Reg := (w.extractLsb' 4 4).toFin

/-- n = w[3:0], the 4-bit immediate or sub-opcode. -/
def fieldN (w : Word) : Nibble := w.extractLsb' 0 4

/-- nn = w[7:0], the 8-bit immediate or sub-opcode. -/
def fieldNN (w : Word) : Byte := w.extractLsb' 0 8

/-- nnn = w[11:0], the 12-bit address. -/
def fieldNNN (w : Word) : Addr := w.extractLsb' 0 12

/-! ### Dispatch (R86 to R90) -/

/-- Group 0x0: the whole word is compared, and every word but two is invalid (R88, D7). -/
def decodeGroup0 (w : Word) : Option Instr :=
  if w = 0x00E0 then some .cls
  else if w = 0x00EE then some .ret
  else none

/-- Group 0x8, keyed by n (R89). -/
def decodeGroup8 (w : Word) : Option Instr :=
  match fieldN w with
  | 0x0#4 => some (.ldReg (fieldX w) (fieldY w))
  | 0x1#4 => some (.orReg (fieldX w) (fieldY w))
  | 0x2#4 => some (.andReg (fieldX w) (fieldY w))
  | 0x3#4 => some (.xorReg (fieldX w) (fieldY w))
  | 0x4#4 => some (.addReg (fieldX w) (fieldY w))
  | 0x5#4 => some (.subReg (fieldX w) (fieldY w))
  | 0x6#4 => some (.shr (fieldX w) (fieldY w))
  | 0x7#4 => some (.subnReg (fieldX w) (fieldY w))
  | 0xE#4 => some (.shl (fieldX w) (fieldY w))
  | _ => none

/-- Group 0xE, keyed by nn (R86, R87). -/
def decodeGroupE (w : Word) : Option Instr :=
  match fieldNN w with
  | 0x9E#8 => some (.skp (fieldX w))
  | 0xA1#8 => some (.sknp (fieldX w))
  | _ => none

/-- Group 0xF, keyed by nn (R86, R87). -/
def decodeGroupF (w : Word) : Option Instr :=
  match fieldNN w with
  | 0x07#8 => some (.ldFromDt (fieldX w))
  | 0x0A#8 => some (.ldKey (fieldX w))
  | 0x15#8 => some (.ldToDt (fieldX w))
  | 0x18#8 => some (.ldToSt (fieldX w))
  | 0x1E#8 => some (.addI (fieldX w))
  | 0x29#8 => some (.ldFont (fieldX w))
  | 0x33#8 => some (.ldBcd (fieldX w))
  | 0x55#8 => some (.storeRegs (fieldX w))
  | 0x65#8 => some (.loadRegs (fieldX w))
  | _ => none

/-- Two-level dispatch of a word (R86). `none` is an invalid word (R90). -/
def decodeWord (w : Word) : Option Instr :=
  match fieldGroup w with
  | 0x0#4 => decodeGroup0 w
  | 0x1#4 => some (.jp (fieldNNN w))
  | 0x2#4 => some (.call (fieldNNN w))
  | 0x3#4 => some (.seByte (fieldX w) (fieldNN w))
  | 0x4#4 => some (.sneByte (fieldX w) (fieldNN w))
  | 0x5#4 => if fieldN w = 0 then some (.seReg (fieldX w) (fieldY w)) else none
  | 0x6#4 => some (.ldByte (fieldX w) (fieldNN w))
  | 0x7#4 => some (.addByte (fieldX w) (fieldNN w))
  | 0x8#4 => decodeGroup8 w
  | 0x9#4 => if fieldN w = 0 then some (.sneReg (fieldX w) (fieldY w)) else none
  | 0xA#4 => some (.ldI (fieldNNN w))
  | 0xB#4 => some (.jpV0 (fieldNNN w))
  | 0xC#4 => some (.rnd (fieldX w) (fieldNN w))
  | 0xD#4 => some (.drw (fieldX w) (fieldY w) (fieldN w))
  | 0xE#4 => decodeGroupE w
  | 0xF#4 => decodeGroupF w
  | _ => none -- no group is left: the sixteen arms above are all there are

/-- Why bytes give no instruction. -/
inductive DecodeReject where
  /-- Fewer than the two bytes of a word (R80). -/
  | truncated
  /-- The word matches no row of the opcode map (R90): executing it raises InvalidInstruction. -/
  | invalidInstruction (w : Word)
  deriving DecidableEq, Repr

/-- The decoder over bytes: two big-endian bytes make the word (R64, R80). The rest of the list is handed back. -/
def decode : List Byte → Except DecodeReject (Instr × List Byte)
  | hi :: lo :: rest =>
    match decodeWord (hi ++ lo) with
    | some i => .ok (i, rest)
    | none => .error (.invalidInstruction (hi ++ lo))
  | _ => .error .truncated

/-! ### Encoding (R83, R87) -/

/-- A register index as its 4-bit field (R85). -/
def regBits (x : Reg) : BitVec 4 := BitVec.ofFin x

/-- Format NNN: group, 12-bit address (R83). -/
def wordNNN (g : BitVec 4) (nnn : Addr) : Word := g ++ nnn

/-- Formats XNN and X: group, x, 8-bit immediate or sub-opcode (R83). -/
def wordXNN (g : BitVec 4) (x : Reg) (nn : Byte) : Word := g ++ regBits x ++ nn

/-- Formats XY and XYN: group, x, y, 4-bit immediate or sub-opcode (R83). -/
def wordXYN (g : BitVec 4) (x y : Reg) (n : Nibble) : Word := g ++ regBits x ++ regBits y ++ n

/-- The word of an instruction (R87). -/
def encode : Instr → Word
  | .cls => 0x00E0
  | .ret => 0x00EE
  | .jp nnn => wordNNN 0x1 nnn
  | .call nnn => wordNNN 0x2 nnn
  | .seByte x nn => wordXNN 0x3 x nn
  | .sneByte x nn => wordXNN 0x4 x nn
  | .seReg x y => wordXYN 0x5 x y 0x0
  | .sneReg x y => wordXYN 0x9 x y 0x0
  | .ldByte x nn => wordXNN 0x6 x nn
  | .addByte x nn => wordXNN 0x7 x nn
  | .ldReg x y => wordXYN 0x8 x y 0x0
  | .orReg x y => wordXYN 0x8 x y 0x1
  | .andReg x y => wordXYN 0x8 x y 0x2
  | .xorReg x y => wordXYN 0x8 x y 0x3
  | .addReg x y => wordXYN 0x8 x y 0x4
  | .subReg x y => wordXYN 0x8 x y 0x5
  | .shr x y => wordXYN 0x8 x y 0x6
  | .subnReg x y => wordXYN 0x8 x y 0x7
  | .shl x y => wordXYN 0x8 x y 0xE
  | .ldI nnn => wordNNN 0xA nnn
  | .jpV0 nnn => wordNNN 0xB nnn
  | .rnd x nn => wordXNN 0xC x nn
  | .drw x y n => wordXYN 0xD x y n
  | .skp x => wordXNN 0xE x 0x9E
  | .sknp x => wordXNN 0xE x 0xA1
  | .ldFromDt x => wordXNN 0xF x 0x07
  | .ldToDt x => wordXNN 0xF x 0x15
  | .ldToSt x => wordXNN 0xF x 0x18
  | .ldKey x => wordXNN 0xF x 0x0A
  | .addI x => wordXNN 0xF x 0x1E
  | .ldFont x => wordXNN 0xF x 0x29
  | .ldBcd x => wordXNN 0xF x 0x33
  | .storeRegs x => wordXNN 0xF x 0x55
  | .loadRegs x => wordXNN 0xF x 0x65

/-- The high and the low byte of a word, in the order memory holds them (R64). -/
def wordBytes (w : Word) : List Byte := [w.extractLsb' 8 8, w.extractLsb' 0 8]

/-- The instruction whose bits are w, numbered as spec/opcode_table.json numbers them: w is the 16-bit word itself.
Bits at or above nbits are 0. The bytes are laid out as memory holds them and given to the decoder. -/
def decodeTableWord (nbits w : Nat) : Option Instr :=
  match decode (wordBytes (BitVec.ofNat 16 (w % 2 ^ nbits))) with
  | .ok (i, _) => some i
  | .error _ => none

end Sys2Proof
end

