-- ==== Sys2Proof/Config.lean ====
section
/-! DEFINITION. What is fixed for the machine (00_scope.md R4) and the free values the spec leaves to the environment
(R5, R15). FONT, the one other parameter of R5, is an argument of `State.construct` (Machine/Font.lean). -/

namespace Sys2Proof.Config

/-- MEM_SIZE: the bytes of memory (R4). -/
abbrev memSize : Nat := 4096

/-- STACK_DEPTH: the slots of the call stack (R4). -/
abbrev stackDepth : Nat := 16

/-- DISPLAY_W: the columns of the display (R4). -/
abbrev displayWidth : Nat := 64

/-- DISPLAY_H: the rows of the display (R4). -/
abbrev displayHeight : Nat := 32

/-- FONT_SIZE: the bytes of the font table at FONT_BASE = 0x000 (R4). -/
abbrev fontSize : Nat := 80

/-- PROGRAM_BASE: the reset value of pc and the address LoadRom copies to (R4). -/
abbrev programBase : Nat := 0x200

/-- ROM_MAX: the longest image LoadRom accepts (R4). -/
abbrev romMax : Nat := 3584

/-- The name of one random generator. Every machine holds a generator of its own (R252, R40); the name only tells the
generators of two machines apart, and says nothing of what either draws. -/
abbrev Generator := Nat

/-- The free random draws (R15, R152, D20): the byte the environment chooses at the n-th draw of a generator, under no
law. It has no body, so nothing can be proved about its value, nor that two generators or two draws of one agree (log 3). -/
opaque draw (g : Generator) (n : Nat) : Byte

/-- STEP_HZ, the host's instruction clock rate: a parameter no rule reads (R5, D29; log 25). -/
opaque stepHz : Nat

/-- TICK_HZ, the host's timer clock rate: a parameter no rule reads (R5, D29; log 25). -/
opaque tickHz : Nat

end Sys2Proof.Config
end

