-- ==== Sys2Proof/Machine/Font.lean ====
section
/-! DEFINITION. FONT, the parameter of the machine that Reset copies to M[0x000..0x04F], and its default (00_scope.md R5,
20_memory.md R66). -/

namespace Sys2Proof.Machine

/-- A value of the parameter FONT: 80 bytes, glyph d at 5d to 5d + 4 (R5, R66, D13). -/
abbrev Font := Vector Byte Config.fontSize

/-- The rows of the 16 default glyphs, each in the high nibble (R66, G1). -/
def defaultGlyphs : List Byte :=
  [0xF0, 0x90, 0x90, 0x90, 0xF0,  0x20, 0x60, 0x20, 0x20, 0x70,
   0xF0, 0x10, 0xF0, 0x80, 0xF0,  0xF0, 0x10, 0xF0, 0x10, 0xF0,
   0x90, 0x90, 0xF0, 0x10, 0x10,  0xF0, 0x80, 0xF0, 0x10, 0xF0,
   0xF0, 0x80, 0xF0, 0x90, 0xF0,  0xF0, 0x10, 0x20, 0x40, 0x40,
   0xF0, 0x90, 0xF0, 0x90, 0xF0,  0xF0, 0x90, 0xF0, 0x10, 0xF0,
   0xF0, 0x90, 0xF0, 0x90, 0x90,  0xE0, 0x90, 0xE0, 0x90, 0xE0,
   0xF0, 0x80, 0x80, 0x80, 0xF0,  0xE0, 0x90, 0x90, 0x90, 0xE0,
   0xF0, 0x80, 0xF0, 0x80, 0xF0,  0xF0, 0x80, 0xF0, 0x80, 0x80]

/-- The default of FONT, which the spec supplies from general knowledge (R66, D13, G1; log 4, PRESUMED). It serves
`State.reset` alone: nothing else reads it. -/
def defaultFont : Font := Vector.ofFn (fun k => defaultGlyphs.getD k.val 0)

end Sys2Proof.Machine
end

