-- ==== Sys2Proof/Machine/State.lean ====
section
/-! DEFINITION. The state of the CORE as plain data (10_state.md), its value after Reset (R43), and the reasons a step can
stop. -/

namespace Sys2Proof.Machine

/-- The reasons the model stops with a fault: none. The CORE's three faults (R230) are not stops: fault entry and the
halted CORE are described (R232, R233), so a faulting Step is a next state that holds the fault record (log 22). No
address faults (R231). Safe: nothing raises it. -/
inductive Fault where
  deriving DecidableEq, Repr

/-- The reasons the model refuses an instruction. -/
inductive Refusal where
  /-- An instruction without a meaning in `exec`; raised by `exec` alone. Safe: the machine stops there. No instruction
  is left without a meaning, so nothing raises it now. -/
  | notModelled (mnemonic : String)
  deriving DecidableEq, Repr

/-- The three fault causes of the CORE, codes 1, 2 and 3 (R230). -/
inductive FaultCode where
  /-- Code 1: the word matches no row of the opcode map. -/
  | invalidInstruction
  /-- Code 2: a CALL with sixteen slots occupied. -/
  | stackOverflow
  /-- Code 3: a RET with no slot occupied. -/
  | stackUnderflow
  deriving DecidableEq, Repr

/-- The record of a fault: its code, the word fetched and the address it was fetched from (R38, R232). -/
structure FaultRecord where
  code : FaultCode
  word : Word
  pc : Word
  deriving DecidableEq, Repr

/-- The display buffer: 32 rows of 64 pixels, true is lit (R33). -/
abbrev Grid := Vector (Vector Bool Config.displayWidth) Config.displayHeight

/-- The output events the CORE delivers to the host (R12). -/
inductive Event where
  /-- Redraw(grid): the whole grid as it stands at the Tick (R244). -/
  | redraw (grid : Grid)
  /-- Tone(n): a request for a tone of n counts (R243). -/
  | tone (n : Byte)
  /-- FaultReport(code, word, pc) (R232). -/
  | faultReport (code : FaultCode) (word pc : Word)
  deriving DecidableEq, Repr

/-- Memory: cells in strictly rising order of address, none equal to what an unlisted address reads as
(Machine/Memory.lean). -/
abbrev Memory := List Host.Cell

/-- The state vector (R20 to R38). The last four fields are the model's own (log 2, log 3, log 4). -/
structure State where
  /-- M, 4096 bytes (R60). -/
  mem : Memory
  /-- V0 to VF (R20). -/
  v : Vector Byte 16
  /-- I, 16 bits (R24). -/
  i : Word
  /-- The program counter, 16 bits (R26). -/
  pc : Word
  /-- S[0] to S[15], the call stack, which is not in memory (R29). -/
  stack : Vector Word Config.stackDepth
  /-- sp, the number of occupied slots, 0 to 16 (R29). -/
  sp : Fin 17
  /-- DT, the delay timer (R31). -/
  dt : Byte
  /-- ST, the sound timer (R31). -/
  st : Byte
  /-- The display buffer (R33). -/
  display : Grid
  /-- K, the pressed-key set, as the membership of each code 0 to 15 (R35). -/
  keys : Vector Bool 16
  /-- The display-changed flag (R36). -/
  dirty : Bool
  /-- Set by Pause, cleared by Resume (R37). -/
  paused : Bool
  /-- The fault record; the CORE is halted exactly when there is one (R38). -/
  fault : Option FaultRecord
  /-- How many draws this machine has taken from its generator: it selects the next free draw (R15, log 3). -/
  draws : Nat
  /-- The output events emitted so far, oldest first (R12, log 2). -/
  events : List Event
  /-- The parameter FONT of this machine (R5, R66), carried with it so that every statement about a state holds for every
  FONT. No operation writes it, and only the reading of unlisted memory uses it (log 4). -/
  font : Font
  /-- The generator this machine owns (R252, R40), shared with no other machine: its draws are `Config.draw` at this name.
  No operation writes it, and only CXNN reads it (log 3). -/
  generator : Config.Generator
  deriving DecidableEq, Repr

/-- What an instruction or a step answers. -/
abbrev Result := Host.Outcome State Fault Refusal

/-- A display with every pixel unset. -/
def blankGrid : Grid := Vector.replicate Config.displayHeight (Vector.replicate Config.displayWidth false)

/-- The machine at construction with the parameter FONT and a generator of its own (R252): the state after Reset with paused = false (R43, R270, R273).
Memory lists nothing: an unlisted address reads as its reset content. -/
def State.construct (font : Font) (generator : Config.Generator) : State where
  mem := []
  v := Vector.replicate 16 0
  i := 0
  pc := 0x0200
  stack := Vector.replicate Config.stackDepth 0
  sp := 0
  dt := 0
  st := 0
  display := blankGrid
  keys := Vector.replicate 16 false
  dirty := true
  paused := false
  fault := none
  draws := 0
  events := []
  font := font
  generator := generator

/-- The machine at construction with FONT at its default (R5, R66; log 4) and its generator named 0 (log 3). -/
def State.reset : State := State.construct defaultFont 0

end Sys2Proof.Machine
end

