-- ==== Sys2Proof/Machine/Memory.lean ====
section
/-! DEFINITION. Memory as a canonical list of cells: what an unlisted address reads as, reading and writing one byte, and
the canonical form (20_memory.md R60, R61, R66). -/

namespace Sys2Proof.Machine

/-- What an unlisted address reads as: its content after Reset, FONT below 0x050 and 0x00 above (R43, R66, R67; log 4,
log 19). -/
def unlistedByte (font : Font) (a : Nat) : Byte :=
  if h : a < Config.fontSize then font[a] else 0

/-- The byte the list holds for an address, if it lists one. -/
def Memory.lookup : Memory → Nat → Option Byte
  | [], _ => none
  | c :: m, a => if c.1 = a then some c.2 else Memory.lookup m a

/-- Read one byte. -/
def Memory.read (m : Memory) (font : Font) (a : Nat) : Byte :=
  (Memory.lookup m a).getD (unlistedByte font a)

/-- Drop the cells of an address. -/
def Memory.erase (m : Memory) (a : Nat) : Memory :=
  m.filter (fun c => c.1 != a)

/-- Put a cell at its place in the rising order. -/
def Memory.insert (a : Nat) (b : Byte) : Memory → Memory
  | [] => [(a, b)]
  | c :: m => if a < c.1 then (a, b) :: c :: m else c :: Memory.insert a b m

/-- Write one byte. Writing what an unlisted address reads as removes the cell, so equal memories are equal lists. -/
def Memory.write (m : Memory) (font : Font) (a : Nat) (b : Byte) : Memory :=
  if b = unlistedByte font a then Memory.erase m a else Memory.insert a b (Memory.erase m a)

/-- The canonical form from address lo up: addresses strictly rising and inside the address space, no cell equal to what
its address reads as unlisted. -/
def Memory.wfFrom (font : Font) : Nat → Memory → Bool
  | _, [] => true
  | lo, c :: m =>
    decide (lo ≤ c.1) && decide (c.1 < Config.memSize) && (c.2 != unlistedByte font c.1) &&
      Memory.wfFrom font (c.1 + 1) m

/-- The canonical form of a memory. -/
def Memory.wf (m : Memory) (font : Font) : Bool := Memory.wfFrom font 0 m

end Sys2Proof.Machine
end

