-- ==== Sys2Proof/Machine/Ops.lean ====
section
/-! DEFINITION. The named operations over registers, memory, stack, display, keys and events; the fetch and the pc advance
(40_sequencer.md R101, R102); taking a fault (60_exceptions.md R232), from which there is no return (R234). -/

namespace Sys2Proof.Machine

/-! ### Field updates: each changes one piece of state -/

/-- V[x], for every x, VF included (R8, R20, R85). -/
def State.reg (s : State) (x : Reg) : Byte := s.v[x]

/-- V[x] <- b: no register is hardwired (R8, R20). -/
def State.setReg (s : State) (x : Reg) (b : Byte) : State := { s with v := s.v.set x b }

/-- I <- w (R8, R24). -/
def State.setI (s : State) (w : Word) : State := { s with i := w }

/-- pc <- w (R8, R26). -/
def State.setPc (s : State) (w : Word) : State := { s with pc := w }

/-- DT <- b (R8, R32). -/
def State.setDt (s : State) (b : Byte) : State := { s with dt := b }

/-- ST <- b (R8, R32). -/
def State.setSt (s : State) (b : Byte) : State := { s with st := b }

/-- Replace memory. -/
def State.setMem (s : State) (m : Memory) : State := { s with mem := m }

/-- Replace the call stack's slots. -/
def State.setStack (s : State) (k : Vector Word Config.stackDepth) : State := { s with stack := k }

/-- sp <- n (R8, R29). -/
def State.setSp (s : State) (n : Fin 17) : State := { s with sp := n }

/-- Replace the display buffer. -/
def State.setDisplay (s : State) (g : Grid) : State := { s with display := g }

/-- Replace the pressed-key set. -/
def State.setKeys (s : State) (k : Vector Bool 16) : State := { s with keys := k }

/-- dirty <- b (R36). -/
def State.setDirty (s : State) (b : Bool) : State := { s with dirty := b }

/-- paused <- b (R37). -/
def State.setPaused (s : State) (b : Bool) : State := { s with paused := b }

/-- fault <- r (R38). -/
def State.setFault (s : State) (r : Option FaultRecord) : State := { s with fault := r }

/-- Count the draws taken (log 3). -/
def State.setDraws (s : State) (n : Nat) : State := { s with draws := n }

/-- emit e: deliver an output event to the host, in order (R12). -/
def State.emit (s : State) (e : Event) : State := { s with events := s.events ++ [e] }

/-! ### Memory (R9, R62) -/

/-- The 12-bit reduction of every address at the access (R62, D1; log 6). -/
def maskAddr (a : Nat) : Nat := a % Config.memSize

/-- MemRead(a, 1) = M[a mod 4096] (R9). -/
def State.memRead (s : State) (a : Nat) : Byte := s.mem.read s.font (maskAddr a)

/-- MemWrite(a, 1, b): M[a mod 4096] <- b (R9). -/
def State.memWrite (s : State) (a : Nat) (b : Byte) : State := s.setMem (s.mem.write s.font (maskAddr a) b)

/-- Write bytes at rising addresses from a, one access each, in increasing order (R63, R71). -/
def State.storeBytes (s : State) (a : Nat) : List Byte → State
  | [] => s
  | b :: bs => State.storeBytes (s.memWrite a b) (a + 1) bs

/-! ### The sequencer's parts (R101, R102) and skips (R14) -/

/-- The word at pc: two big-endian bytes at pc and pc + 1, both masked (R64, R101). -/
def State.fetchWord (s : State) : Word := s.memRead s.pc.toNat ++ s.memRead (s.pc.toNat + 1)

/-- pc <- (pc + 2) mod 65536, before the operation executes (R102). -/
def State.advance (s : State) : State := s.setPc (s.pc + 2)

/-- skip: pc <- (pc + 2) mod 65536 on top of the advance (R14, R109). -/
def State.skip (s : State) : State := s.setPc (s.pc + 2)

/-- Skip the next word if the condition holds (R14). -/
def State.skipIf (c : Bool) (s : State) : State := if c then s.skip else s

/-- pc <- (pc - 2) mod 65536: back to the address the word was fetched from (R213, R104). -/
def State.rewind (s : State) : State := s.setPc (s.pc - 2)

/-- raise Fault(code) on the word w, in a state whose pc is already advanced. No raise site comes after a write, so the
rewind of pc undoes the Step (R104); the record is kept and reported, and nothing else changes (R232, D3; log 8). -/
def State.raiseFault (s : State) (code : FaultCode) (w : Word) : State :=
  let t := s.rewind
  (t.setFault (some ⟨code, w, t.pc⟩)).emit (.faultReport code w t.pc)

/-- The code number of a fault (R230, D4). -/
def faultNumber : FaultCode → Nat
  | .invalidInstruction => 1
  | .stackOverflow => 2
  | .stackUnderflow => 3

/-! ### The call stack (R29, R30) -/

/-- S[sp] <- w, sp <- sp + 1; none when all sixteen slots are occupied (R121). -/
def State.push (s : State) (w : Word) : Option State :=
  if h : s.sp.val < Config.stackDepth then
    some ((s.setStack (s.stack.set s.sp.val w h)).setSp ⟨s.sp.val + 1, Nat.succ_lt_succ h⟩)
  else none

/-- sp <- sp - 1, and S[sp]; the slot keeps its value (R120, D17). None when no slot is occupied. -/
def State.pop (s : State) : Option (Word × State) :=
  if h : 0 < s.sp.val then
    have hk : s.sp.val - 1 < Config.stackDepth := by have := s.sp.isLt; simp only [Config.stackDepth]; omega
    some (s.stack[s.sp.val - 1], s.setSp ⟨s.sp.val - 1, Nat.lt_succ_of_lt hk⟩)
  else none

/-! ### The display (R10, R33) -/

/-- Pix(x, y): column x, row y (R10). -/
def Grid.pixel (g : Grid) (x : Fin Config.displayWidth) (y : Fin Config.displayHeight) : Bool := g[y][x]

/-- Pix(x, y) <- not Pix(x, y) (R191). -/
def Grid.flip (g : Grid) (x : Fin Config.displayWidth) (y : Fin Config.displayHeight) : Grid :=
  g.set y (g[y].set x (!g[y][x]))

/-- Some pixel is lit (R190). -/
def Grid.anyLit (g : Grid) : Bool := g.toList.any (fun row => row.toList.any id)

/-- A drawing in progress: the grid, and the two locals of the DXYN pseudocode (R191). -/
structure Canvas where
  grid : Grid
  collided : Bool
  changed : Bool
  deriving DecidableEq, Repr

/-- A sprite bit of 1 at column px, row py, unbounded: dropped outside the grid, else it inverts its pixel and collides if
that pixel was lit (R191, R193, R194). -/
def Canvas.plot (d : Canvas) (px py : Nat) : Canvas :=
  if h : px < Config.displayWidth ∧ py < Config.displayHeight then
    { grid := d.grid.flip ⟨px, h.1⟩ ⟨py, h.2⟩
      collided := d.collided || d.grid.pixel ⟨px, h.1⟩ ⟨py, h.2⟩
      changed := true }
  else d

/-- One sprite row b with its bit 7 at column x0 (R192, D11; log 13): columns c = 0 to 7 in increasing order. -/
def Canvas.plotRow (d : Canvas) (b : Byte) (x0 py : Nat) : Canvas :=
  (List.range 8).foldl (fun d c => if b.getLsbD (7 - c) then d.plot (x0 + c) py else d) d

/-- The rows of a sprite from row py down, in increasing order (R191). -/
def Canvas.plotRows (d : Canvas) (x0 py : Nat) : List Byte → Canvas
  | [] => d
  | b :: rows => Canvas.plotRows (d.plotRow b x0 py) x0 (py + 1) rows

/-! ### The pressed-key set (R35, R212) -/

/-- Whether the 8-bit value b is a pressed key: the full value is compared, so 16 or more is never pressed (R212). -/
def State.pressed (s : State) (b : Byte) : Bool :=
  if h : b.toNat < 16 then s.keys[b.toNat] else false

/-- The key LD Vx, K takes: the lowest pressed code, none when K is empty (R213, D8: KEY_CHOICE at its default, min;
log 5). -/
def State.chosenKey (s : State) : Option Key :=
  (List.finRange 16).find? (fun k => s.keys[k])

/-! ### The random draw (R15) -/

/-- draw_random(): the next free byte of the machine's own generator, and the state that has taken it (R15, R152, R252;
log 3). -/
def State.drawRandom (s : State) : Byte × State := 
  (Config.draw s.generator s.draws, s.setDraws (s.draws + 1))

/-! ### Placing an instruction where Step fetches (for the host's probes) -/

/-- Store a word at pc as the fetch reads it, and open the two gates of Step (R100), so that the next Step runs it
(log 21). -/
def State.placeWord (s : State) (w : Word) : State :=
  ((s.storeBytes s.pc.toNat (wordBytes w)).setPaused false).setFault none

end Sys2Proof.Machine
end

