-- ==== Sys2Proof/Machine/Operands.lean ====
section
/-! DEFINITION. The operand forms: zero-extended immediates (30_encoding.md R84), the register range V0 to V[x] (R85) and
the one data addressing mode, I plus a constant offset (43_index_memory.md R176). -/

namespace Sys2Proof.Machine

/-- nnn zero-extended to 16 bits (R84). -/
def addrImm (nnn : Addr) : Word := nnn.setWidth 16

/-- A register's byte zero-extended to 16 bits (R7, R123). -/
def byteWord (b : Byte) : Word := b.setWidth 16

/-- The unmasked data address of byte k or row k: I + k, reduced mod 4096 only at the access (R62, R176). -/
def State.dataAddr (s : State) (k : Nat) : Nat := s.i.toNat + k

/-- The registers V0 to V[x], x the last of the range, in increasing order (R85, R174, R175). -/
def regRange (x : Reg) : List Reg := (List.finRange 16).take (x.val + 1)

/-- The sprite rows of DXYN: n bytes from I + 0 to I + n - 1 (R191, R192). -/
def State.spriteRows (s : State) (n : Nibble) : List Byte :=
  (List.range n.toNat).map (fun r => s.memRead (s.dataAddr r))

/-- The three decimal digits of a byte: hundreds, tens, units (R173). -/
def bcdDigits (b : Byte) : List Byte := [b / 100, (b / 10) % 10, b % 10]

end Sys2Proof.Machine
end

