-- ==== Sys2Proof/Machine/ControlFlow.lean ====
section
/-! DEFINITION. Control transfer and skips (41_control_flow.md). On entry pc already holds pc_f + 2 (R102). -/

namespace Sys2Proof.Machine

/-- RET (R120): pc takes the popped slot unchanged; with an empty stack StackUnderflow is raised and nothing else
changes. -/
def execRet (s : State) : Host.Outcome State Fault Refusal :=
  match s.pop with
  | some (target, t) => .next (t.setPc target)
  | none => .next (s.raiseFault .stackUnderflow (encode .ret))

/-- CALL addr (R121): push pc (= pc_f + 2) and go to nnn; with a full stack StackOverflow is raised and nothing else
changes. -/
def execCall (nnn : Addr) (s : State) : Host.Outcome State Fault Refusal :=
  match s.push s.pc with
  | some t => .next (t.setPc (addrImm nnn))
  | none => .next (s.raiseFault .stackOverflow (encode (.call nnn)))

/-- JP addr (R122). -/
def execJp (nnn : Addr) (s : State) : Host.Outcome State Fault Refusal :=
  .next (s.setPc (addrImm nnn))

/-- JP V0, addr (R123): always V0; the sum keeps its bits above 0xFFF. -/
def execJpV0 (nnn : Addr) (s : State) : Host.Outcome State Fault Refusal :=
  .next (s.setPc (addrImm nnn + byteWord (s.reg 0)))

/-- SE Vx, byte (R124). -/
def execSeByte (x : Reg) (nn : Byte) (s : State) : Host.Outcome State Fault Refusal :=
  .next (s.skipIf (decide (s.reg x = nn)))

/-- SNE Vx, byte (R125). -/
def execSneByte (x : Reg) (nn : Byte) (s : State) : Host.Outcome State Fault Refusal :=
  .next (s.skipIf (decide (s.reg x ≠ nn)))

/-- SE Vx, Vy (R126). -/
def execSeReg (x y : Reg) (s : State) : Host.Outcome State Fault Refusal :=
  .next (s.skipIf (decide (s.reg x = s.reg y)))

/-- SNE Vx, Vy (R127). -/
def execSneReg (x y : Reg) (s : State) : Host.Outcome State Fault Refusal :=
  .next (s.skipIf (decide (s.reg x ≠ s.reg y)))

end Sys2Proof.Machine
end

