-- ==== Sys2Proof/Machine/Flags.lean ====
section
/-! DEFINITION. Every flag computation. VF is the only flag register (10_state.md R22), and it is written last
(42_register_alu.md R140). -/

namespace Sys2Proof.Machine

/-- A flag as the byte VF holds: 1 or 0. -/
def flagByte (c : Bool) : Byte := if c then 1 else 0

/-- VF <- 1 if c else 0. -/
def State.setFlag (s : State) (c : Bool) : State := s.setReg vF (flagByte c)

/-- Carry of 8XY4: the unmodded sum exceeds 255 (R147). -/
def carryFlag (a b : Byte) : Bool := decide (a.toNat + b.toNat > 255)

/-- No borrow of a - b, for 8XY5 and 8XY7: a ≥ b (R148, R150). -/
def noBorrowFlag (a b : Byte) : Bool := decide (a.toNat ≥ b.toNat)

/-- The bit 8XY6 shifts out: bit 0 (R149). -/
def lowBitFlag (a : Byte) : Bool := a.getLsbD 0

/-- The bit 8XYE shifts out: bit 7 (R151). -/
def highBitFlag (a : Byte) : Bool := a.getLsbD 7

/-- Overflow of FX1E: the unmodded sum I + V[x] exceeds 0x0FFF (R171). -/
def pastAddrFlag (i : Word) (b : Byte) : Bool := decide (i.toNat + b.toNat > 0x0FFF)

end Sys2Proof.Machine
end

