-- ==== Sys2Proof/Machine/Display.lean ====
section
/-! DEFINITION. The display operations (44_display.md). dirty is set only when a pixel changes value (R36, D14; log 14). -/

namespace Sys2Proof.Machine

/-- CLS (R190): every pixel unset; dirty set if some pixel was lit. -/
def execCls (s : State) : Host.Outcome State Fault Refusal :=
  let changed := Grid.anyLit s.display
  .next ((s.setDisplay blankGrid).setDirty (s.dirty || changed))

/-- DRW Vx, Vy, nibble (R191): the coordinates are read before VF is written, and VF is written last. -/
def execDrw (x y : Reg) (n : Nibble) (s : State) : Host.Outcome State Fault Refusal :=
  let d := Canvas.plotRows ⟨s.display, false, false⟩ (s.reg x).toNat (s.reg y).toNat (s.spriteRows n)
  .next (((s.setDisplay d.grid).setDirty (s.dirty || d.changed)).setFlag d.collided)

end Sys2Proof.Machine
end

