-- ==== Sys2Proof/Machine/IndexMemory.lean ====
section
/-! DEFINITION. The address register and the memory operations (43_index_memory.md). Accesses are masked; I keeps 16 bits
and no access changes it (R176). -/

namespace Sys2Proof.Machine

/-- LD I, addr (R170). -/
def execLdI (nnn : Addr) (s : State) : Host.Outcome State Fault Refusal :=
  .next (s.setI (addrImm nnn))

/-- ADD I, Vx (R171): I = (I + V[x]) mod 65536, then VF = the unmodded sum exceeded 0xFFF. -/
def execAddI (x : Reg) (s : State) : Host.Outcome State Fault Refusal :=
  let b := s.reg x
  .next ((s.setI (s.i + byteWord b)).setFlag (pastAddrFlag s.i b))

/-- LD F, Vx (R172): I = V[x] × 5, the full byte, not reduced to a digit. -/
def execLdFont (x : Reg) (s : State) : Host.Outcome State Fault Refusal :=
  .next (s.setI (byteWord (s.reg x) * 5))

/-- LD B, Vx (R173): hundreds, tens and units to I, I + 1 and I + 2. -/
def execLdBcd (x : Reg) (s : State) : Host.Outcome State Fault Refusal :=
  .next (s.storeBytes (s.dataAddr 0) (bcdDigits (s.reg x)))

/-- LD [I], Vx (R174): V0 to V[x] to I + 0 to I + x. -/
def execStoreRegs (x : Reg) (s : State) : Host.Outcome State Fault Refusal :=
  .next (s.storeBytes (s.dataAddr 0) ((regRange x).map s.reg))

/-- LD Vx, [I] (R175): I + 0 to I + x to V0 to V[x]. -/
def execLoadRegs (x : Reg) (s : State) : Host.Outcome State Fault Refusal :=
  .next ((regRange x).foldl (fun t k => t.setReg k (t.memRead (t.dataAddr k.val))) s)

end Sys2Proof.Machine
end

