-- ==== Sys2Proof/Machine/KeypadTimers.lean ====
section
/-! DEFINITION. Keypad and timer operations (45_keypad_timers.md). -/

namespace Sys2Proof.Machine

/-- SKP Vx (R210, R212). -/
def execSkp (x : Reg) (s : State) : Host.Outcome State Fault Refusal :=
  .next (s.skipIf (s.pressed (s.reg x)))

/-- SKNP Vx (R211, R212). -/
def execSknp (x : Reg) (s : State) : Host.Outcome State Fault Refusal :=
  .next (s.skipIf (!s.pressed (s.reg x)))

/-- LD Vx, K (R213): with no key pressed pc goes back to this word, else V[x] takes the lowest pressed code and K is
unchanged. -/
def execLdKey (x : Reg) (s : State) : Host.Outcome State Fault Refusal :=
  match s.chosenKey with
  | none => .next s.rewind
  | some k => .next (s.setReg x (BitVec.ofNat 8 k.val))

/-- LD Vx, DT (R214). -/
def execLdFromDt (x : Reg) (s : State) : Host.Outcome State Fault Refusal :=
  .next (s.setReg x s.dt)

/-- LD DT, Vx (R215). -/
def execLdToDt (x : Reg) (s : State) : Host.Outcome State Fault Refusal :=
  .next (s.setDt (s.reg x))

/-- LD ST, Vx (R216): no Tone is emitted by the Step. -/
def execLdToSt (x : Reg) (s : State) : Host.Outcome State Fault Refusal :=
  .next (s.setSt (s.reg x))

end Sys2Proof.Machine
end

