-- ==== Sys2Proof/Machine/RegisterAlu.lean ====
section
/-! DEFINITION. Register loads, arithmetic and logic (42_register_alu.md). Operands are read before any register is
written, V[x] is written first and VF last (R140). -/

namespace Sys2Proof.Machine

/-- LD Vx, byte (R141). -/
def execLdByte (x : Reg) (nn : Byte) (s : State) : Host.Outcome State Fault Refusal :=
  .next (s.setReg x nn)

/-- ADD Vx, byte (R142): wraps mod 256, no flag. -/
def execAddByte (x : Reg) (nn : Byte) (s : State) : Host.Outcome State Fault Refusal :=
  .next (s.setReg x (s.reg x + nn))

/-- LD Vx, Vy (R143). -/
def execLdReg (x y : Reg) (s : State) : Host.Outcome State Fault Refusal :=
  .next (s.setReg x (s.reg y))

/-- OR Vx, Vy (R144): VF is not written as a flag. -/
def execOrReg (x y : Reg) (s : State) : Host.Outcome State Fault Refusal :=
  .next (s.setReg x (s.reg x ||| s.reg y))

/-- AND Vx, Vy (R145): VF is not written as a flag. -/
def execAndReg (x y : Reg) (s : State) : Host.Outcome State Fault Refusal :=
  .next (s.setReg x (s.reg x &&& s.reg y))

/-- XOR Vx, Vy (R146): VF is not written as a flag. -/
def execXorReg (x y : Reg) (s : State) : Host.Outcome State Fault Refusal :=
  .next (s.setReg x (s.reg x ^^^ s.reg y))

/-- ADD Vx, Vy (R147): VF = carry. -/
def execAddReg (x y : Reg) (s : State) : Host.Outcome State Fault Refusal :=
  let a := s.reg x
  let b := s.reg y
  .next ((s.setReg x (a + b)).setFlag (carryFlag a b))

/-- SUB Vx, Vy (R148): VF = no borrow. -/
def execSubReg (x y : Reg) (s : State) : Host.Outcome State Fault Refusal :=
  let a := s.reg x
  let b := s.reg y
  .next ((s.setReg x (a - b)).setFlag (noBorrowFlag a b))

/-- SHR Vx {, Vy} (R149): V[x] is shifted, V[y] is not read. -/
def execShr (x _y : Reg) (s : State) : Host.Outcome State Fault Refusal :=
  let a := s.reg x
  .next ((s.setReg x (a >>> 1)).setFlag (lowBitFlag a))

/-- SUBN Vx, Vy (R150): V[y] - V[x], VF = no borrow. -/
def execSubnReg (x y : Reg) (s : State) : Host.Outcome State Fault Refusal :=
  let a := s.reg x
  let b := s.reg y
  .next ((s.setReg x (b - a)).setFlag (noBorrowFlag b a))

/-- SHL Vx {, Vy} (R151): V[x] is shifted, V[y] is not read. -/
def execShl (x _y : Reg) (s : State) : Host.Outcome State Fault Refusal :=
  let a := s.reg x
  .next ((s.setReg x (a <<< 1)).setFlag (highBitFlag a))

/-- RND Vx, byte (R152): a fresh free draw, masked by nn. -/
def execRnd (x : Reg) (nn : Byte) (s : State) : Host.Outcome State Fault Refusal :=
  match s.drawRandom with
  | (r, t) => .next (t.setReg x (r &&& nn))

end Sys2Proof.Machine
end

