-- ==== Sys2Proof/Machine/Sequencer.lean ====
section
/-! DEFINITION. The Step operation: gates, fetch, advance, decode and dispatch, commit (40_sequencer.md R100 to R104). -/

namespace Sys2Proof.Machine

/-- Step past its gates (R101 to R104): the word is fetched at pc, pc advances, and the operation runs or
InvalidInstruction is raised. -/
def fetchExecute (s : State) : Host.Outcome State Fault Refusal :=
  let w := s.fetchWord
  match decodeWord w with
  | some i => exec i s.advance
  | none => .next (s.advance.raiseFault .invalidInstruction w)

/-- Step: without effect while paused, then while halted, else one instruction (R100). -/
def runStep (s : State) : Host.Outcome State Fault Refusal :=
  if s.paused then .next s
  else if s.fault.isSome then .next s
  else fetchExecute s

end Sys2Proof.Machine
end

