-- ==== Sys2Proof/Machine/Step.lean ====
section
/-! DEFINITION. The step of the machine and the placing of one instruction for the host's probes; both only call
Machine/Sequencer.lean and Machine/Ops.lean. -/

namespace Sys2Proof.Machine

/-- One step is one host invocation of Step (00_scope.md R17, 40_sequencer.md R100; log 1). -/
def step (s : State) : Host.Outcome State Fault Refusal := runStep s

/-- The state with the 16-bit instruction whose bits are w (those at or above nbits 0) placed where the next Step fetches
(log 21). -/
def State.withFetchWord (s : State) (nbits w : Nat) : State :=
  s.placeWord (BitVec.ofNat 16 (w % 2 ^ nbits))

end Sys2Proof.Machine
end

