-- ==== Sys2Proof/Machine/HostOps.lean ====
section
/-! DEFINITION. Every host operation but Step: Tick, the keys, Pause and Resume, Reset, the loads and Snapshot, and a run
as a sequence of host operations (60_exceptions.md R240 to R256, 70_reset_and_hazards.md R270 to R277). -/

namespace Sys2Proof.Machine

/-! ### Tick (R240) -/

/-- First part: if DT > 0, DT <- DT - 1 (R240, R241). -/
def State.tickDelay (s : State) : State :=
  if s.dt = 0 then s else s.setDt (s.dt - 1)

/-- Second part: if ST > 0, emit Tone(ST) and drain the whole timer (R240, R243). -/
def State.tickSound (s : State) : State :=
  if s.st = 0 then s else (s.emit (.tone s.st)).setSt 0

/-- Third part: if dirty, emit Redraw with the grid as it stands and clear dirty (R240, R244). -/
def State.tickDisplay (s : State) : State :=
  if s.dirty then (s.emit (.redraw s.display)).setDirty false else s

/-- Tick: without effect while paused, else delay timer, sound timer, display flush (R240). It does not read fault
(R233, D6). -/
def tick (s : State) : State :=
  if s.paused then s else s.tickDelay.tickSound.tickDisplay

/-- The exact duration a Tone of n counts asks for, in milliseconds: n × 1000 / 60 (R4, R243, D19; log 18). -/
def toneMilliseconds (n : Byte) : Rat := (n.toNat : Rat) * 1000 / 60

/-! ### Keys, Pause and Resume: gated by nothing (R247 to R249) -/

/-- KeyDown(code): K <- K ∪ {code} if code < 16, else no effect (R247, D16; log 15). -/
def keyDown (code : Nat) (s : State) : State :=
  if h : code < 16 then s.setKeys (s.keys.set code true h) else s

/-- KeyUp(code): K <- K \ {code} if code < 16, else no effect (R248, D16; log 15). -/
def keyUp (code : Nat) (s : State) : State :=
  if h : code < 16 then s.setKeys (s.keys.set code false h) else s

/-- Pause (R249). -/
def pause (s : State) : State := s.setPaused true

/-- Resume (R249). -/
def resume (s : State) : State := s.setPaused false

/-! ### Reset and the loads (R270 to R277) -/

/-- Reset, accepted in every state: everything takes its reset value but paused (R270, R272, D18; log 17). It emits no
event (R271); the events already emitted and the count of draws are no state of the spec and stay (log 2, log 3). FONT is
copied from the machine's own parameter (R66, log 4), and the machine keeps its own generator (R252): the draws after a
Reset are new ones, under no law (R40). -/
def hostReset (s : State) : State :=
  { State.construct s.font s.generator with paused := s.paused, draws := s.draws, events := s.events }

/-- What a load answers (R276). -/
inductive LoadReply where
  | ok
  | loadError
  deriving DecidableEq, Repr

/-- A load fits when it does not run past the end of memory (R276). DESIGN CHOICE (log 24): for no bytes at an offset above
4096 the rule's pseudocode (`offset + L > 4096: return LoadError`) and its prose (`L = 0 succeeds`) disagree; the pseudocode
is followed, so the reply is a load error. The state is unchanged either way. -/
def loadFits (offset : Nat) (bytes : List Byte) : Bool := decide (offset + bytes.length ≤ Config.memSize)

/-- The reply of BulkLoad(offset, bytes) (R276). -/
def bulkLoadReply (offset : Nat) (bytes : List Byte) : LoadReply :=
  if loadFits offset bytes then .ok else .loadError

/-- BulkLoad(offset, bytes): all the bytes or, where they do not fit, no change (R276, D26; log 24). Only memory changes,
and neither paused nor fault gates it. -/
def bulkLoad (offset : Nat) (bytes : List Byte) (s : State) : State :=
  if loadFits offset bytes then s.storeBytes offset bytes else s

/-- LoadRom(bytes) = BulkLoad(0x200, bytes) (R277). -/
def loadRom (bytes : List Byte) (s : State) : State := bulkLoad Config.programBase bytes s

/-- The reply of LoadRom(bytes) (R277). -/
def loadRomReply (bytes : List Byte) : LoadReply := bulkLoadReply Config.programBase bytes

/-! ### The host interface (R256) -/

/-- The operations the host can invoke (R256). -/
inductive HostOp where
  | step
  | tick
  | keyDown (code : Nat)
  | keyUp (code : Nat)
  | pause
  | resume
  | reset
  | bulkLoad (offset : Nat) (bytes : List Byte)
  | loadRom (bytes : List Byte)
  | snapshot
  deriving DecidableEq, Repr

/-- One host invocation, an atomic transition of the whole CORE (R17, R253). A Snapshot reads the state and changes
nothing (R251). -/
def perform (op : HostOp) (s : State) : Host.Outcome State Fault Refusal :=
  match op with
  | .step => step s
  | .tick => .next (tick s)
  | .keyDown code => .next (keyDown code s)
  | .keyUp code => .next (keyUp code s)
  | .pause => .next (pause s)
  | .resume => .next (resume s)
  | .reset => .next (hostReset s)
  | .bulkLoad offset bytes => .next (bulkLoad offset bytes s)
  | .loadRom bytes => .next (loadRom bytes s)
  | .snapshot => .next s

/-- A run: host invocations one after another (R19, R253). Any interleaving of Step and Tick is a run (R242, R281). -/
def performAll : List HostOp → State → Host.Outcome State Fault Refusal
  | [], s => .next s
  | op :: ops, s =>
    match perform op s with
    | .next t => performAll ops t
    | .fault r => .fault r
    | .refused r => .refused r

end Sys2Proof.Machine
end

