-- ==== Sys2Proof/Safety.lean ====
section
/-! DEFINITION. The terms claims use: a state in which Step runs, the invariant of the machine, what an instruction may
change (its footprint), and which pixels a sprite hits. -/

namespace Sys2Proof.Machine

/-- The two gates of Step are open: neither paused nor halted (R100). -/
def State.Running (s : State) : Prop := s.paused = false ∧ s.fault = none

/-! ### The invariant -/

/-- A halted CORE agrees with its fault record: pc stands where the faulting word was fetched, the report was emitted,
and the cause still holds (R230, R232, R233). -/
def State.FaultAgrees (s : State) : Prop :=
  ∀ r, s.fault = some r →
    s.pc = r.pc ∧ Event.faultReport r.code r.word r.pc ∈ s.events ∧
    match r.code with
    | .invalidInstruction => wordWellFormed r.word = false
    | .stackOverflow => s.sp = 16 ∧ fieldGroup r.word = 0x2
    | .stackUnderflow => s.sp = 0 ∧ r.word = 0x00EE

/-- Every Tone emitted carries a count of 1 to 255 (R243). -/
def State.TonesCount (s : State) : Prop :=
  ∀ n, Event.tone n ∈ s.events → n ≠ 0

/-- The invariant: memory is canonical, a fault record agrees with the state, tones carry a count. -/
structure State.Inv (s : State) : Prop where
  memory : s.mem.wf s.font = true
  record : s.FaultAgrees
  tones : s.TonesCount

/-! ### Footprints -/

/-- What an instruction may change. Everything not named in it stays. K, paused, FONT and the generator a machine
owns have no entry: no instruction writes them (R35, R37, R5, R252). -/
structure Footprint where
  regs : List Reg := []
  i : Bool := false
  pc : Bool := false
  callStack : Bool := false
  dt : Bool := false
  st : Bool := false
  display : Bool := false
  record : Bool := false
  draws : Bool := false
  /-- The masked addresses stored to. -/
  bytes : List Nat := []

/-- t differs from s only inside the footprint: registers, I, pc, the call stack, the timers, the display and its changed
flag, the fault record and the events, the draws, and every byte of memory. -/
structure ChangesOnly (f : Footprint) (s t : State) : Prop where
  regs : ∀ r, r ∉ f.regs → t.reg r = s.reg r
  i : f.i = false → t.i = s.i
  pc : f.pc = false → t.pc = s.pc
  stack : f.callStack = false → t.stack = s.stack
  sp : f.callStack = false → t.sp = s.sp
  dt : f.dt = false → t.dt = s.dt
  st : f.st = false → t.st = s.st
  display : f.display = false → t.display = s.display
  dirty : f.display = false → t.dirty = s.dirty
  keys : t.keys = s.keys
  font : t.font = s.font
  generator : t.generator = s.generator
  paused : t.paused = s.paused
  fault : f.record = false → t.fault = s.fault
  events : f.record = false → t.events = s.events
  draws : f.draws = false → t.draws = s.draws
  memory : ∀ a, a < Config.memSize → a ∉ f.bytes → t.memRead a = s.memRead a

/-- The masked addresses of n data bytes from I (R62, R176). -/
def State.dataBytes (s : State) (n : Nat) : List Nat :=
  (List.range n).map (fun k => maskAddr (s.dataAddr k))

/-- The writers of each piece of state, instruction by instruction (R23, R25, R26, R30, R32, R34, R63). Only RET and CALL
can raise a fault (R230), so only they may write the record and the events. -/
def footprint (i : Instr) (s : State) : Footprint :=
  match i with
  | .cls => { display := true }
  | .ret | .call _ => { callStack := true, pc := true, record := true }
  | .jp _ | .jpV0 _ => { pc := true }
  | .seByte _ _ | .sneByte _ _ | .seReg _ _ | .sneReg _ _ | .skp _ | .sknp _ => { pc := true }
  | .ldByte x _ | .addByte x _ => { regs := [x] }
  | .ldReg x _ | .orReg x _ | .andReg x _ | .xorReg x _ => { regs := [x] }
  | .addReg x _ | .subReg x _ | .shr x _ | .subnReg x _ | .shl x _ => { regs := [x, vF] }
  | .ldI _ | .ldFont _ => { i := true }
  | .rnd x _ => { regs := [x], draws := true }
  | .drw _ _ _ => { regs := [vF], display := true }
  | .ldFromDt x => { regs := [x] }
  | .ldToDt _ => { dt := true }
  | .ldToSt _ => { st := true }
  | .ldKey x => { regs := [x], pc := true }
  | .addI _ => { regs := [vF], i := true }
  | .ldBcd _ => { bytes := s.dataBytes 3 }
  | .storeRegs x => { bytes := s.dataBytes (x.val + 1) }
  | .loadRegs x => { regs := regRange x }

/-! ### The pc after a Step (R108) -/

/-- The table of R108: the pc after a Step that fetched instruction i in state s, the state before the Step. A CALL or RET
that faults leaves pc where it was. -/
def pcAfter (i : Instr) (s : State) : Word :=
  match i with
  | .jp nnn => addrImm nnn
  | .call nnn => if s.sp.val < 16 then addrImm nnn else s.pc
  | .ret =>
    if h : 0 < s.sp.val then
      s.stack[s.sp.val - 1]'(by have := s.sp.isLt; simp only [Config.stackDepth]; omega)
    else s.pc
  | .jpV0 nnn => addrImm nnn + byteWord (s.reg 0)
  | .seByte x nn => if s.reg x = nn then s.pc + 4 else s.pc + 2
  | .sneByte x nn => if s.reg x = nn then s.pc + 2 else s.pc + 4
  | .seReg x y => if s.reg x = s.reg y then s.pc + 4 else s.pc + 2
  | .sneReg x y => if s.reg x = s.reg y then s.pc + 2 else s.pc + 4
  | .skp x => if s.pressed (s.reg x) then s.pc + 4 else s.pc + 2
  | .sknp x => if s.pressed (s.reg x) then s.pc + 2 else s.pc + 4
  | .ldKey _ => if ∃ k : Key, s.keys[k] = true then s.pc + 2 else s.pc
  | .cls | .drw _ _ _ => s.pc + 2
  | .ldByte _ _ | .addByte _ _ | .rnd _ _ => s.pc + 2
  | .ldReg _ _ | .orReg _ _ | .andReg _ _ | .xorReg _ _ => s.pc + 2
  | .addReg _ _ | .subReg _ _ | .shr _ _ | .subnReg _ _ | .shl _ _ => s.pc + 2
  | .ldI _ | .addI _ | .ldFont _ | .ldBcd _ | .storeRegs _ | .loadRegs _ => s.pc + 2
  | .ldFromDt _ | .ldToDt _ | .ldToSt _ => s.pc + 2

/-! ### Sprites (R191 to R194) -/

/-- A sprite row b drawn from column x0 has a bit of 1 at column px; bit 7 is its column 0 (R192, D11). -/
def rowHits (b : Byte) (x0 px : Nat) : Bool :=
  decide (x0 ≤ px) && decide (px < x0 + 8) && b.getLsbD (7 - (px - x0))

/-- Drawing the rows from row y0 and column x0 has a bit of 1 at column px, row py. -/
def spriteHits (rows : List Byte) (x0 y0 px py : Nat) : Bool :=
  decide (y0 ≤ py) && (rows[py - y0]?).any (fun b => rowHits b x0 px)

/-- DXYN with these operands in state s has a sprite bit of 1 at column px, row py: the row is the byte at
(I + row) mod 4096 (R192, R193). -/
def State.drawHits (s : State) (x y : Reg) (n : Nibble) (px py : Nat) : Bool :=
  decide ((s.reg y).toNat ≤ py) && decide (py < (s.reg y).toNat + n.toNat) &&
    rowHits (s.memRead (s.i.toNat + (py - (s.reg y).toNat))) (s.reg x).toNat px

end Sys2Proof.Machine
end

