-- ==== Sys2Proof/Certificates/Slice0/Obligations.lean ====
section
/-! DEFINITION. The statements for the provers, each from the spec's rules. A stated one cites rules it states whole; a
derived one rests on the sections it cites and says which decisions of the spec or log entries it leans on. `exec` runs in
the state whose pc is already two past the word (40_sequencer.md section 2, log 20). -/

open Sys2Proof Sys2Proof.Machine

/-- R141: LD Vx, byte loads nn exactly, for every x, VF included; no flag, no other change. -/
def Obligations.LdByteLoadsImmediate : Prop :=
  ∀ (x : Reg) (nn : Byte) (s : State),
    decodeWord (wordXNN 0x6 x nn) = some (.ldByte x nn) ∧
    ∃ t, exec (.ldByte x nn) s = .next t ∧ t.reg x = nn ∧ ChangesOnly { regs := [x] } s t

/-- R142: ADD Vx, byte wraps mod 256; VF is written only as the destination when x = F. -/
def Obligations.AddByteWrapsWithoutFlag : Prop :=
  ∀ (x : Reg) (nn : Byte) (s : State),
    decodeWord (wordXNN 0x7 x nn) = some (.addByte x nn) ∧
    ∃ t, exec (.addByte x nn) s = .next t ∧
      (t.reg x).toNat = ((s.reg x).toNat + nn.toNat) % 256 ∧ ChangesOnly { regs := [x] } s t

/-- R143: LD Vx, Vy; x = y leaves the register as it was. -/
def Obligations.LdRegCopiesRegister : Prop :=
  ∀ (x y : Reg) (s : State),
    decodeWord (wordXYN 0x8 x y 0x0) = some (.ldReg x y) ∧
    ∃ t, exec (.ldReg x y) s = .next t ∧ t.reg x = s.reg y ∧ ChangesOnly { regs := [x] } s t

/-- R144 to R146: OR, AND, XOR; VF is not written as a flag. -/
def Obligations.LogicOperationsBitwise : Prop :=
  ∀ (x y : Reg) (s : State),
    (decodeWord (wordXYN 0x8 x y 0x1) = some (.orReg x y) ∧
      ∃ t, exec (.orReg x y) s = .next t ∧ ChangesOnly { regs := [x] } s t ∧
        ∀ k, (t.reg x).getLsbD k = ((s.reg x).getLsbD k || (s.reg y).getLsbD k)) ∧
    (decodeWord (wordXYN 0x8 x y 0x2) = some (.andReg x y) ∧
      ∃ t, exec (.andReg x y) s = .next t ∧ ChangesOnly { regs := [x] } s t ∧
        ∀ k, (t.reg x).getLsbD k = ((s.reg x).getLsbD k && (s.reg y).getLsbD k)) ∧
    (decodeWord (wordXYN 0x8 x y 0x3) = some (.xorReg x y) ∧
      ∃ t, exec (.xorReg x y) s = .next t ∧ ChangesOnly { regs := [x] } s t ∧
        ∀ k, (t.reg x).getLsbD k = ((s.reg x).getLsbD k ^^ (s.reg y).getLsbD k))

/-- R147: VF = carry, written last; with x = F the sum is lost, with y = F the old VF is the addend. -/
def Obligations.AddRegSetsCarryLast : Prop :=
  ∀ (x y : Reg) (s : State),
    decodeWord (wordXYN 0x8 x y 0x4) = some (.addReg x y) ∧
    ∃ t, exec (.addReg x y) s = .next t ∧
      (t.reg vF).toNat = (if (s.reg x).toNat + (s.reg y).toNat > 255 then 1 else 0) ∧
      (x ≠ vF → (t.reg x).toNat = ((s.reg x).toNat + (s.reg y).toNat) % 256) ∧
      ChangesOnly { regs := [x, vF] } s t

/-- R148 and R150: the two subtractions; VF = NOT borrow, written last. -/
def Obligations.SubtractionsSetNoBorrowLast : Prop :=
  ∀ (x y : Reg) (s : State),
    (decodeWord (wordXYN 0x8 x y 0x5) = some (.subReg x y) ∧
      ∃ t, exec (.subReg x y) s = .next t ∧
        (t.reg vF).toNat = (if (s.reg x).toNat ≥ (s.reg y).toNat then 1 else 0) ∧
        (x ≠ vF → (t.reg x).toNat = (256 + (s.reg x).toNat - (s.reg y).toNat) % 256) ∧
        ChangesOnly { regs := [x, vF] } s t) ∧
    (decodeWord (wordXYN 0x8 x y 0x7) = some (.subnReg x y) ∧
      ∃ t, exec (.subnReg x y) s = .next t ∧
        (t.reg vF).toNat = (if (s.reg y).toNat ≥ (s.reg x).toNat then 1 else 0) ∧
        (x ≠ vF → (t.reg x).toNat = (256 + (s.reg y).toNat - (s.reg x).toNat) % 256) ∧
        ChangesOnly { regs := [x, vF] } s t)

/-- R149 and R151: the shifts shift Vx, not Vy; VF is the bit shifted out, written last. -/
def Obligations.ShiftsMoveVxAndIgnoreVy : Prop :=
  ∀ (x y : Reg) (s : State),
    (decodeWord (wordXYN 0x8 x y 0x6) = some (.shr x y) ∧
      ∃ t, exec (.shr x y) s = .next t ∧ (∀ y', exec (.shr x y') s = .next t) ∧
        (t.reg vF).toNat = (s.reg x).toNat % 2 ∧
        (x ≠ vF → (t.reg x).toNat = (s.reg x).toNat / 2) ∧
        ChangesOnly { regs := [x, vF] } s t) ∧
    (decodeWord (wordXYN 0x8 x y 0xE) = some (.shl x y) ∧
      ∃ t, exec (.shl x y) s = .next t ∧ (∀ y', exec (.shl x y') s = .next t) ∧
        (t.reg vF).toNat = (s.reg x).toNat / 128 ∧
        (x ≠ vF → (t.reg x).toNat = (s.reg x).toNat * 2 % 256) ∧
        ChangesOnly { regs := [x, vF] } s t)

/-- RND, 42_register_alu.md section 4. The draw is a free value (D20) of the machine's own
generator (R252): its place in State and in Config is the model's choice, log 3. -/
def Obligations.RndMasksAFreeDraw : Prop :=
  ∀ (x : Reg) (nn : Byte) (s : State),
    decodeWord (wordXNN 0xC x nn) = some (.rnd x nn) ∧
    ∃ t, exec (.rnd x nn) s = .next t ∧
      t.reg x = Config.draw s.generator s.draws &&& nn ∧
      (∀ k, nn.getLsbD k = false → (t.reg x).getLsbD k = false) ∧
      (nn = 0 → t.reg x = 0) ∧
      t.draws = s.draws + 1 ∧
      ChangesOnly { regs := [x], draws := true } s t

/-- R122: the unconditional jump. -/
def Obligations.JpSetsPc : Prop :=
  ∀ (nnn : Addr) (s : State),
    decodeWord (wordNNN 0x1 nnn) = some (.jp nnn) ∧
    ∃ t, exec (.jp nnn) s = .next t ∧ t.pc.toNat = nnn.toNat ∧ ChangesOnly { pc := true } s t

/-- JP V0, addr, 41_control_flow.md section 2. A target above 0xFFF or odd is kept: decisions D1 and D2 (logs 6 and 7). -/
def Obligations.JpV0AddsRegisterZero : Prop :=
  ∀ (nnn : Addr) (s : State),
    decodeWord (wordNNN 0xB nnn) = some (.jpV0 nnn) ∧
    ∃ t, exec (.jpV0 nnn) s = .next t ∧ t.pc.toNat = nnn.toNat + (s.reg 0).toNat ∧ t.pc.toNat ≤ 0x10FE ∧
      ChangesOnly { pc := true } s t

/-- R124 and R125. exec runs with pc already past the word (R102), so the skip adds two more. -/
def Obligations.SkipOnImmediate : Prop :=
  ∀ (x : Reg) (nn : Byte) (s : State),
    (decodeWord (wordXNN 0x3 x nn) = some (.seByte x nn) ∧
      ∃ t, exec (.seByte x nn) s = .next t ∧ t.pc = (if s.reg x = nn then s.pc + 2 else s.pc) ∧
        ChangesOnly { pc := true } s t) ∧
    (decodeWord (wordXNN 0x4 x nn) = some (.sneByte x nn) ∧
      ∃ t, exec (.sneByte x nn) s = .next t ∧ t.pc = (if s.reg x = nn then s.pc else s.pc + 2) ∧
        ChangesOnly { pc := true } s t)

/-- R126 and R127. A word with another low nibble raises InvalidInstruction in dispatch (the decoder gives nothing). -/
def Obligations.SkipOnRegisters : Prop :=
  ∀ (x y : Reg) (s : State),
    (decodeWord (wordXYN 0x5 x y 0x0) = some (.seReg x y) ∧
      (∀ n, n ≠ 0 → decodeWord (wordXYN 0x5 x y n) = none) ∧
      ∃ t, exec (.seReg x y) s = .next t ∧ t.pc = (if s.reg x = s.reg y then s.pc + 2 else s.pc) ∧
        ChangesOnly { pc := true } s t) ∧
    (decodeWord (wordXYN 0x9 x y 0x0) = some (.sneReg x y) ∧
      (∀ n, n ≠ 0 → decodeWord (wordXYN 0x9 x y n) = none) ∧
      ∃ t, exec (.sneReg x y) s = .next t ∧ t.pc = (if s.reg x = s.reg y then s.pc else s.pc + 2) ∧
        ChangesOnly { pc := true } s t)

/-- CALL addr, 41_control_flow.md section 1, with sp in 0 to 15. Sixteen usable slots: decision D5 (log 16). -/
def Obligations.CallPushesReturnAddress : Prop :=
  ∀ (nnn : Addr) (s : State) (h : s.sp.val < 16),
    decodeWord (wordNNN 0x2 nnn) = some (.call nnn) ∧
    ∃ t, exec (.call nnn) s = .next t ∧
      t.sp.val = s.sp.val + 1 ∧ t.stack[s.sp.val] = s.pc ∧
      (∀ (j : Nat) (hj : j < 16), j ≠ s.sp.val → t.stack[j] = s.stack[j]) ∧
      t.pc.toNat = nnn.toNat ∧
      ChangesOnly { callStack := true, pc := true } s t

/-- CALL addr with sp = 16: the entry of StackOverflow. Decisions D3 (log 8) and D5 (log 16). -/
def Obligations.CallOnFullStackFaults : Prop :=
  ∀ (nnn : Addr) (s : State), s.sp = 16 →
    ∃ t, exec (.call nnn) s = .next t ∧
      t.fault = some ⟨.stackOverflow, wordNNN 0x2 nnn, s.pc - 2⟩ ∧
      t.events = s.events ++ [.faultReport .stackOverflow (wordNNN 0x2 nnn) (s.pc - 2)] ∧
      t.pc = s.pc - 2 ∧ ChangesOnly { pc := true, record := true } s t

/-- RET, 41_control_flow.md section 1, with sp in 1 to 16. A pop leaves the slot: decision D17 (log 16). -/
def Obligations.RetPopsReturnAddress : Prop :=
  ∀ (s : State), 0 < s.sp.val →
    decodeWord 0x00EE = some .ret ∧
    ∃ t, exec .ret s = .next t ∧
      t.sp.val + 1 = s.sp.val ∧ s.stack[t.sp.val]? = some t.pc ∧ t.stack = s.stack ∧
      ChangesOnly { callStack := true, pc := true } s t

/-- RET with sp = 0: the entry of StackUnderflow. Decisions D3 (log 8) and D5 (log 16). -/
def Obligations.RetOnEmptyStackFaults : Prop :=
  ∀ (s : State), s.sp = 0 →
    ∃ t, exec .ret s = .next t ∧
      t.fault = some ⟨.stackUnderflow, 0x00EE, s.pc - 2⟩ ∧
      t.events = s.events ++ [.faultReport .stackUnderflow 0x00EE (s.pc - 2)] ∧
      t.pc = s.pc - 2 ∧ ChangesOnly { pc := true, record := true } s t

/-- The call and return round trip of W5, over two Steps. -/
def Obligations.CallThenRetReturnsBehindCall : Prop :=
  ∀ (s : State) (nnn : Addr), s.Running → s.sp.val < 16 → decodeWord s.fetchWord = some (.call nnn) →
    ∃ t, step s = .next t ∧
      (t.fetchWord = 0x00EE → ∃ u, step t = .next u ∧ u.pc = s.pc + 2 ∧ u.sp = s.sp)

/-- R170: LD I, addr. -/
def Obligations.LdISetsAddress : Prop :=
  ∀ (nnn : Addr) (s : State),
    decodeWord (wordNNN 0xA nnn) = some (.ldI nnn) ∧
    ∃ t, exec (.ldI nnn) s = .next t ∧ t.i.toNat = nnn.toNat ∧ t.i.toNat ≤ 0x0FFF ∧ ChangesOnly { i := true } s t

/-- ADD I, Vx, 43_index_memory.md section 1. I keeps 16 bits: decision D1 (log 6). -/
def Obligations.AddIFlagsPastFFF : Prop :=
  ∀ (x : Reg) (s : State),
    decodeWord (wordXNN 0xF x 0x1E) = some (.addI x) ∧
    ∃ t, exec (.addI x) s = .next t ∧
      t.i.toNat = (s.i.toNat + (s.reg x).toNat) % 65536 ∧
      (t.reg vF).toNat = (if s.i.toNat + (s.reg x).toNat > 0x0FFF then 1 else 0) ∧
      ChangesOnly { regs := [vF], i := true } s t

/-- R172: LD F, Vx; a value of 16 or more is not masked to a digit. -/
def Obligations.LdFontMultipliesByFive : Prop :=
  ∀ (x : Reg) (s : State),
    decodeWord (wordXNN 0xF x 0x29) = some (.ldFont x) ∧
    ∃ t, exec (.ldFont x) s = .next t ∧ t.i.toNat = (s.reg x).toNat * 5 ∧ ChangesOnly { i := true } s t

/-- LD B, Vx, 43_index_memory.md section 2. Decisions D1 (log 6) and D10 (log 12). -/
def Obligations.LdBcdStoresDecimalDigits : Prop :=
  ∀ (x : Reg) (s : State),
    decodeWord (wordXNN 0xF x 0x33) = some (.ldBcd x) ∧
    ∃ t, exec (.ldBcd x) s = .next t ∧
      (t.memRead (s.dataAddr 0)).toNat = (s.reg x).toNat / 100 ∧
      (t.memRead (s.dataAddr 1)).toNat = (s.reg x).toNat / 10 % 10 ∧
      (t.memRead (s.dataAddr 2)).toNat = (s.reg x).toNat % 10 ∧
      ChangesOnly { bytes := s.dataBytes 3 } s t

/-- LD [I], Vx, 43_index_memory.md section 2. Decisions D1 (log 6) and D10 (log 12). -/
def Obligations.StoreRegsCopiesRange : Prop :=
  ∀ (x : Reg) (s : State),
    decodeWord (wordXNN 0xF x 0x55) = some (.storeRegs x) ∧
    ∃ t, exec (.storeRegs x) s = .next t ∧
      (∀ k : Reg, k ≤ x → t.memRead (s.dataAddr k.val) = s.reg k) ∧
      ChangesOnly { bytes := s.dataBytes (x.val + 1) } s t

/-- LD Vx, [I], 43_index_memory.md section 2. Decisions D1 (log 6) and D10 (log 12). -/
def Obligations.LoadRegsCopiesRange : Prop :=
  ∀ (x : Reg) (s : State),
    decodeWord (wordXNN 0xF x 0x65) = some (.loadRegs x) ∧
    ∃ t, exec (.loadRegs x) s = .next t ∧
      (∀ k : Reg, k ≤ x → t.reg k = s.memRead (s.dataAddr k.val)) ∧
      ChangesOnly { regs := regRange x } s t

/-- A load of the range after its store, 43_index_memory.md section 2. It leans on two choices: LD [I], Vx leaves I (decision
D10, log 12), and a range past 0xFFF is masked by store and load alike (decision D1, log 6). -/
def Obligations.StoreThenLoadRestoresRegisters : Prop :=
  ∀ (x : Reg) (s : State), ∃ t, exec (.storeRegs x) s = .next t ∧
    ∀ u : State, (∀ a, u.memRead a = t.memRead a) → u.i = t.i →
      ∃ u', exec (.loadRegs x) u = .next u' ∧ ∀ k : Reg, k ≤ x → u'.reg k = s.reg k

/-- CLS, 44_display.md section 1. dirty: decision D14 (log 14). -/
def Obligations.ClsClearsDisplay : Prop :=
  ∀ (s : State),
    decodeWord 0x00E0 = some .cls ∧
    ∃ t, exec .cls s = .next t ∧
      (∀ x y, Grid.pixel t.display x y = false) ∧
      (t.dirty = true ↔ s.dirty = true ∨ ∃ x y, Grid.pixel s.display x y = true) ∧
      ChangesOnly { display := true } s t

/-- DRW, 44_display.md sections 1 and 2: the sequential drawing and the closed form agree. Decisions D1 (log 6), D11 (log 13), D14 (log 14). -/
def Obligations.DrwXorsClippedSprite : Prop :=
  ∀ (x y : Reg) (n : Nibble) (s : State),
    decodeWord (wordXYN 0xD x y n) = some (.drw x y n) ∧
    ∃ t, exec (.drw x y n) s = .next t ∧
      (∀ (px : Fin 64) (py : Fin 32),
        Grid.pixel t.display px py = (Grid.pixel s.display px py ^^ s.drawHits x y n px.val py.val)) ∧
      (t.reg vF = 0 ∨ t.reg vF = 1) ∧
      (t.reg vF = 1 ↔ ∃ (px : Fin 64) (py : Fin 32),
        s.drawHits x y n px.val py.val = true ∧ Grid.pixel s.display px py = true) ∧
      (t.dirty = true ↔ s.dirty = true ∨ ∃ (px : Fin 64) (py : Fin 32), s.drawHits x y n px.val py.val = true) ∧
      ChangesOnly { regs := [vF], display := true } s t

/-- The same sprite twice at the same place, 44_display.md section 1; x or y = F would move the place, and those
forms stand in DrwXorsClippedSprite. The flag follows the pseudocode (log 28); the pixels hit rest on the bit order D11
(log 13) and on masking D1 (log 6). -/
def Obligations.DrwTwiceRestoresDisplay : Prop :=
  ∀ (x y : Reg) (n : Nibble) (s : State), x ≠ vF → y ≠ vF →
    ∃ t u, exec (.drw x y n) s = .next t ∧ exec (.drw x y n) t = .next u ∧
      u.display = s.display ∧
      (u.reg vF = 1 ↔ ∃ (px : Fin 64) (py : Fin 32),
        s.drawHits x y n px.val py.val = true ∧ Grid.pixel s.display px py = false)

/-- SKP and SKNP, 45_keypad_timers.md section 1. Decision D16 (log 15). -/
def Obligations.SkipOnKey : Prop :=
  ∀ (x : Reg) (s : State),
    (decodeWord (wordXNN 0xE x 0x9E) = some (.skp x) ∧
      ∃ t, exec (.skp x) s = .next t ∧
        t.pc = (if ∃ k : Key, k.val = (s.reg x).toNat ∧ s.keys[k] = true then s.pc + 2 else s.pc) ∧
        ChangesOnly { pc := true } s t) ∧
    (decodeWord (wordXNN 0xE x 0xA1) = some (.sknp x) ∧
      ∃ t, exec (.sknp x) s = .next t ∧
        t.pc = (if ∃ k : Key, k.val = (s.reg x).toNat ∧ s.keys[k] = true then s.pc else s.pc + 2) ∧
        ChangesOnly { pc := true } s t)

/-- LD Vx, K, 45_keypad_timers.md section 2. Decisions D8 (log 5) and D9 (log 11). -/
def Obligations.LdKeyTakesLowestOrParks : Prop :=
  ∀ (x : Reg) (s : State),
    decodeWord (wordXNN 0xF x 0x0A) = some (.ldKey x) ∧
    (∀ k : Key, s.keys[k] = true → (∀ j : Key, j < k → s.keys[j] = false) →
      ∃ t, exec (.ldKey x) s = .next t ∧ (t.reg x).toNat = k.val ∧ ChangesOnly { regs := [x] } s t) ∧
    ((∀ k : Key, s.keys[k] = false) →
      ∃ t, exec (.ldKey x) s = .next t ∧ t.pc = s.pc - 2 ∧ ChangesOnly { pc := true } s t)

/-- The parked outcome of a Step, 40_sequencer.md section 3. Decision D9 (log 11). -/
def Obligations.ParkedStepChangesNothing : Prop :=
  ∀ (s : State) (x : Reg), s.Running → decodeWord s.fetchWord = some (.ldKey x) → (∀ k : Key, s.keys[k] = false) →
    step s = .next s

/-- R214: LD Vx, DT. -/
def Obligations.LdVxDtReadsDelayTimer : Prop :=
  ∀ (x : Reg) (s : State),
    decodeWord (wordXNN 0xF x 0x07) = some (.ldFromDt x) ∧
    ∃ t, exec (.ldFromDt x) s = .next t ∧ t.reg x = s.dt ∧ t.dt = s.dt ∧ ChangesOnly { regs := [x] } s t

/-- The timer writes, 45_keypad_timers.md section 3; what a later Tick does with them is TickRunsItsThreeParts. -/
def Obligations.TimerWritesCopyVx : Prop :=
  ∀ (x : Reg) (s : State),
    (decodeWord (wordXNN 0xF x 0x15) = some (.ldToDt x) ∧
      ∃ t, exec (.ldToDt x) s = .next t ∧ t.dt = s.reg x ∧ ChangesOnly { dt := true } s t) ∧
    (decodeWord (wordXNN 0xF x 0x18) = some (.ldToSt x) ∧
      ∃ t, exec (.ldToSt x) s = .next t ∧ t.st = s.reg x ∧ ChangesOnly { st := true } s t)

/-- Formats and opcode map, 30_encoding.md sections 1 to 3: no operand bit is dropped. -/
def Obligations.DecodeInvertsEncode : Prop :=
  ∀ (i : Instr) (rest : List Byte),
    decodeWord (encode i) = some i ∧ decode (wordBytes (encode i) ++ rest) = .ok (i, rest)

/-- The other direction, 30_encoding.md sections 1 to 3. -/
def Obligations.EncodeInvertsDecode : Prop :=
  ∀ (w : Word) (i : Instr), decodeWord w = some i → encode i = w

/-- Invalid encodings, 30_encoding.md section 4. Group 0: decision D7 (log 10). -/
def Obligations.InvalidWordsNameNoRow : Prop :=
  ∀ (w : Word), decodeWord w = none ↔ ∀ r ∈ opcodeTable, w &&& r.mask ≠ r.pattern

/-- Dispatch selects the one row, 30_encoding.md section 3. -/
def Obligations.DispatchSelectsTheOneRow : Prop :=
  ∀ (w : Word) (i : Instr), decodeWord w = some i →
    i.row ∈ opcodeTable ∧ w &&& i.row.mask = i.row.pattern ∧
      ∀ r ∈ opcodeTable, w &&& r.mask = r.pattern → r = i.row

/-- The decoding vectors, 95_test_vectors.md section 2.1. -/
def Obligations.HandEncodedWordsDecode : Prop :=
  decodeWord 0xD12F = some (.drw 1 2 0xF) ∧ decodeWord 0x00E0 = some .cls ∧ decodeWord 0x00EE = some .ret ∧
  decodeWord 0x5120 = some (.seReg 1 2) ∧ decodeWord 0x8FFE = some (.shl 15 15) ∧
  decodeWord 0xE19E = some (.skp 1) ∧ decodeWord 0xFF65 = some (.loadRegs 15) ∧
  decodeWord 0xBFFF = some (.jpV0 0xFFF) ∧ decodeWord 0x01E0 = none ∧ decodeWord 0x0000 = none ∧
  decodeWord 0x5121 = none ∧ decodeWord 0x8008 = none

/-- Fetch, advance, dispatch, 40_sequencer.md section 2. -/
def Obligations.StepRunsDecodedInstruction : Prop :=
  ∀ (s : State) (i : Instr), s.Running → decodeWord s.fetchWord = some i →
    step s = exec i s.advance ∧ s.advance.pc.toNat = (s.pc.toNat + 2) % 65536 ∧
      ChangesOnly { pc := true } s s.advance

/-- Instruction fetch, 20_memory.md section 2. Decisions D1 (log 6) and D2 (log 7). -/
def Obligations.FetchIsBigEndianAndMasked : Prop :=
  ∀ (s : State), s.fetchWord.toNat =
    256 * (s.mem.read s.font (s.pc.toNat % 4096)).toNat +
      (s.mem.read s.font ((s.pc.toNat + 1) % 4096)).toNat

/-- Fault entry on an invalid word, 60_exceptions.md section 1. Decision D3 (log 8). -/
def Obligations.InvalidWordFaults : Prop :=
  ∀ (s : State), s.Running → decodeWord s.fetchWord = none →
    ∃ t, step s = .next t ∧
      t.fault = some ⟨.invalidInstruction, s.fetchWord, s.pc⟩ ∧
      t.events = s.events ++ [.faultReport .invalidInstruction s.fetchWord s.pc] ∧
      ChangesOnly { record := true } s t

/-- Faults are precise, 40_sequencer.md section 2 (commit). Decision D3 (log 8). -/
def Obligations.FaultingStepCommitsNothing : Prop :=
  ∀ (s t : State) (r : FaultRecord), s.Running → step s = .next t → t.fault = some r →
    r.word = s.fetchWord ∧ r.pc = s.pc ∧ t.events = s.events ++ [.faultReport r.code r.word r.pc] ∧
      ChangesOnly { record := true } s t

/-- The gates of a Step, 40_sequencer.md section 1. Decision D6 (log 9). -/
def Obligations.PausedOrHaltedStepHasNoEffect : Prop :=
  ∀ (s : State), (s.paused = true ∨ s.fault ≠ none) → step s = .next s

/-- A Step always completes, 40_sequencer.md section 3. -/
def Obligations.StepAlwaysAnswersNext : Prop :=
  ∀ (s : State), ∃ t, step s = .next t

/-- The table of pc values, 40_sequencer.md section 3, for a running CORE whose word decodes. Decisions: D3 (log 8) and D5
(log 16) for a CALL or RET that faults, D9 (log 11) for a parked LD Vx, K, D1 and D2 (logs 6, 7) for kept targets. -/
def Obligations.PcAfterStepFollowsTable : Prop :=
  ∀ (s t : State) (i : Instr), s.Running → decodeWord s.fetchWord = some i → step s = .next t →
    t.pc = pcAfter i s

/-- Step never emits Redraw or Tone, 40_sequencer.md section 3. -/
def Obligations.StepEmitsAtMostAFaultReport : Prop :=
  ∀ (s t : State), step s = .next t →
    (t.events = s.events ∨ ∃ code w pc, t.events = s.events ++ [.faultReport code w pc]) ∧
      t.keys = s.keys ∧ t.paused = s.paused

/-- The writers of each piece of state, 10_state.md: the frame of all 34 instructions. I kept by FX33, FX55 and FX65: decision
D10 (log 12). Masked addresses of the bytes stored to: decision D1 (log 6). -/
def Obligations.FrameOfEveryInstruction : Prop :=
  ∀ (i : Instr) (s t : State), exec i s = .next t → ChangesOnly (footprint i s) s t

/-- An invariant of every Step, from every state that has it. -/
def Obligations.StepKeepsInv : Prop :=
  ∀ (s t : State), s.Inv → step s = .next t → t.Inv

/-- The invariant holds at reset. -/
def Obligations.ResetHasInv : Prop :=
  (∀ (font : Font) (g : Config.Generator), (State.construct font g).Inv) ∧ State.reset.Inv

/-- All of the host interface, 60_exceptions.md section 8. -/
def Obligations.HostOperationsKeepInv : Prop :=
  (∀ (op : HostOp) (s t : State), s.Inv → perform op s = .next t → t.Inv) ∧
    ∀ (font : Font) (g : Config.Generator) (ops : List HostOp) (t : State),
      performAll ops (State.construct font g) = .next t → t.Inv

/-- No return from a fault and no nesting, 60_exceptions.md section 1. -/
def Obligations.FaultClearedOnlyByReset : Prop :=
  ∀ (op : HostOp) (s t : State) (r : FaultRecord), op ≠ .reset → s.fault = some r → perform op s = .next t →
    t.fault = some r

/-- Memory primitives, 00_scope.md section 4 and 20_memory.md. Masking: decision D1 (log 6). -/
def Obligations.ReadAfterWriteInMaskedMemory : Prop :=
  ∀ (s : State) (a a' : Nat) (b : Byte),
    (s.memWrite a b).memRead a' = (if a' % 4096 = a % 4096 then b else s.memRead a') ∧
      (s.mem.wf s.font = true → (s.memWrite a b).mem.wf s.font = true)

/-- Fetch coherence, 20_memory.md section 4. Decision D23 (log 23). -/
def Obligations.StoredWordIsFetchedNext : Prop :=
  ∀ (s : State) (w : Word), (s.storeBytes s.pc.toNat (wordBytes w)).fetchWord = w

/-- The table of reset values, 10_state.md section 10, for every FONT. Default font: log 4. dirty, paused: decisions D15, D21
(logs 14, 17). -/
def Obligations.ResetStateHasSpecValues : Prop :=
  State.reset = State.construct defaultFont 0 ∧ ∀ (font : Font) (g : Config.Generator),
    (∀ (a : Nat) (h : a < 80), (State.construct font g).memRead a = font[a]) ∧
    (∀ a, 80 ≤ a → a < 4096 → (State.construct font g).memRead a = 0) ∧
    (∀ x, (State.construct font g).reg x = 0) ∧ (State.construct font g).i = 0 ∧ (State.construct font g).pc = 0x200 ∧
    (∀ (j : Nat) (hj : j < 16), (State.construct font g).stack[j] = 0) ∧ (State.construct font g).sp = 0 ∧
    (State.construct font g).dt = 0 ∧ (State.construct font g).st = 0 ∧
    (∀ x y, Grid.pixel (State.construct font g).display x y = false) ∧
    (∀ k : Key, (State.construct font g).keys[k] = false) ∧
    (State.construct font g).dirty = true ∧ (State.construct font g).paused = false ∧ (State.construct font g).fault = none

/-- Reset, 70_reset_and_hazards.md section 1. The font copied is the parameter of the machine (R66, log 4). Decisions D15, D18
(logs 14, 17). -/
def Obligations.HostResetRestoresAllButPaused : Prop :=
  ∀ (s : State), perform .reset s = .next (hostReset s) ∧
    (∀ (a : Nat) (h : a < 80), (hostReset s).memRead a = s.font[a]) ∧
    (∀ a, 80 ≤ a → a < 4096 → (hostReset s).memRead a = 0) ∧
    (hostReset s).mem = State.reset.mem ∧ (hostReset s).v = State.reset.v ∧ (hostReset s).i = State.reset.i ∧
    (hostReset s).pc = State.reset.pc ∧ (hostReset s).stack = State.reset.stack ∧
    (hostReset s).sp = State.reset.sp ∧ (hostReset s).dt = State.reset.dt ∧ (hostReset s).st = State.reset.st ∧
    (hostReset s).display = State.reset.display ∧ (hostReset s).keys = State.reset.keys ∧
    (hostReset s).dirty = State.reset.dirty ∧ (hostReset s).fault = State.reset.fault ∧
    (hostReset s).paused = s.paused ∧ (hostReset s).events = s.events ∧ (hostReset s).draws = s.draws ∧
    (hostReset s).font = s.font ∧ (hostReset s).generator = s.generator

/-- Tick, 60_exceptions.md section 3 (R240). It does not read the fault record: that a halted CORE runs the whole Tick leans on
decision D6, a fault halts Step only (log 9). -/
def Obligations.TickRunsItsThreeParts : Prop :=
  ∀ (s : State),
    (s.paused = true → perform .tick s = .next s) ∧
    (s.paused = false → ∃ t, perform .tick s = .next t ∧
      t.dt.toNat = s.dt.toNat - 1 ∧ t.st = 0 ∧ t.dirty = false ∧
      t.events = s.events ++ (if s.st = 0 then [] else [.tone s.st]) ++ (if s.dirty then [.redraw s.display] else []) ∧
      t.mem = s.mem ∧ t.v = s.v ∧ t.i = s.i ∧ t.pc = s.pc ∧ t.stack = s.stack ∧ t.sp = s.sp ∧
      t.display = s.display ∧ t.keys = s.keys ∧ t.paused = s.paused ∧ t.fault = s.fault ∧ t.draws = s.draws ∧
      t.font = s.font ∧ t.generator = s.generator)

/-- R249: Pause and Resume. -/
def Obligations.PauseAndResumeGateTheClocks : Prop :=
  ∀ (s : State),
    perform .pause s = .next { s with paused := true } ∧ perform .resume s = .next { s with paused := false } ∧
    pause (pause s) = pause s ∧ resume (resume s) = resume s ∧
    (s.paused = true → perform .step s = .next s ∧ perform .tick s = .next s)

/-- KeyDown and KeyUp, 60_exceptions.md section 4. Decision D16 (log 15). -/
def Obligations.KeysFollowTheHost : Prop :=
  ∀ (code : Nat) (s : State),
    (∃ t, perform (.keyDown code) s = .next t ∧ t = { s with keys := t.keys } ∧
      (∀ k : Key, t.keys[k] = if k.val = code then true else s.keys[k]) ∧ (16 ≤ code → t = s)) ∧
    (∃ t, perform (.keyUp code) s = .next t ∧ t = { s with keys := t.keys } ∧
      (∀ k : Key, t.keys[k] = if k.val = code then false else s.keys[k]) ∧ (16 ≤ code → t = s))

/-- Loading, 70_reset_and_hazards.md section 2. Decision D26 (log 24). The load error for no bytes at an offset above 4096 is
the model's choice of the pseudocode over the prose (log 24). -/
def Obligations.BulkLoadCopiesAllOrNothing : Prop :=
  ∀ (offset : Nat) (bytes : List Byte) (s : State),
    (offset + bytes.length > 4096 →
      bulkLoadReply offset bytes = .loadError ∧ perform (.bulkLoad offset bytes) s = .next s) ∧
    (offset + bytes.length ≤ 4096 → bulkLoadReply offset bytes = .ok ∧
      ∃ t, perform (.bulkLoad offset bytes) s = .next t ∧ t = { s with mem := t.mem } ∧
        (∀ (k : Nat) (hk : k < bytes.length), t.memRead (offset + k) = bytes[k]) ∧
        (∀ a, a < 4096 → (a < offset ∨ offset + bytes.length ≤ a) → t.memRead a = s.memRead a)) ∧
    perform (.loadRom bytes) s = perform (.bulkLoad 0x200 bytes) s ∧
    (loadRomReply bytes = .loadError ↔ bytes.length > 3584)

/-- FONT is a parameter, 00_scope.md section 3 and 20_memory.md section 3: no operation writes the field that carries it
(decision D13, log 4). -/
def Obligations.FontStaysTheParameter : Prop :=
  (∀ (op : HostOp) (s t : State), perform op s = .next t → t.font = s.font) ∧
    ∀ (font : Font) (g : Config.Generator) (ops : List HostOp) (t : State),
      performAll ops (State.construct font g) = .next t → t.font = font

/-- Each machine holds its own generator, 60_exceptions.md section 6 (R252): no operation changes which one, and no draw is
taken twice. The fields are the model's own (log 3). -/
def Obligations.MachineKeepsItsOwnGenerator : Prop :=
  (∀ (op : HostOp) (s t : State), perform op s = .next t →
    t.generator = s.generator ∧ (t.draws = s.draws ∨ op = .step ∧ t.draws = s.draws + 1)) ∧
    ∀ (font : Font) (g : Config.Generator) (ops : List HostOp) (t : State),
      performAll ops (State.construct font g) = .next t → t.generator = g
end

