-- ==== Sys2Proof/Laws/Decode.lean ====
section
/-! SUPPORT. The fields of a word built from fields, and a word rebuilt from its fields: the lemmas that proofs about the
decoder and the encoder cite instead of unfolding bit extraction. -/

namespace Sys2Proof

@[simp] theorem regBits_toNat (x : Reg) : (regBits x).toNat = x.val := rfl

/-! ### Words and fields as numbers -/

theorem toNat_append_add {m n : Nat} (a : BitVec m) (b : BitVec n) : (a ++ b).toNat = a.toNat * 2 ^ n + b.toNat := by
  rw [BitVec.toNat_append, ← Nat.shiftLeft_add_eq_or_of_lt b.isLt, Nat.shiftLeft_eq]

theorem wordNNN_toNat (g : BitVec 4) (nnn : Addr) : (wordNNN g nnn).toNat = g.toNat * 4096 + nnn.toNat :=
  toNat_append_add g nnn

theorem wordXNN_toNat (g : BitVec 4) (x : Reg) (nn : Byte) :
    (wordXNN g x nn).toNat = g.toNat * 4096 + x.val * 256 + nn.toNat := by
  have h : (wordXNN g x nn).toNat = (g ++ regBits x).toNat * 2 ^ 8 + nn.toNat := toNat_append_add _ nn
  rw [h, toNat_append_add, regBits_toNat]
  omega

theorem wordXYN_toNat (g : BitVec 4) (x y : Reg) (n : Nibble) :
    (wordXYN g x y n).toNat = g.toNat * 4096 + x.val * 256 + y.val * 16 + n.toNat := by
  have h : (wordXYN g x y n).toNat = (g ++ regBits x ++ regBits y).toNat * 2 ^ 4 + n.toNat := toNat_append_add _ n
  rw [h, toNat_append_add, toNat_append_add, regBits_toNat, regBits_toNat]
  omega

theorem fieldGroup_toNat (w : Word) : (fieldGroup w).toNat = w.toNat / 4096 := by
  have := w.isLt
  simp only [fieldGroup, BitVec.extractLsb'_toNat, Nat.shiftRight_eq_div_pow]
  omega

theorem fieldX_val (w : Word) : (fieldX w).val = w.toNat / 256 % 16 := by
  show (w.extractLsb' 8 4).toNat = _
  simp only [BitVec.extractLsb'_toNat, Nat.shiftRight_eq_div_pow]

theorem fieldY_val (w : Word) : (fieldY w).val = w.toNat / 16 % 16 := by
  show (w.extractLsb' 4 4).toNat = _
  simp only [BitVec.extractLsb'_toNat, Nat.shiftRight_eq_div_pow]

theorem fieldN_toNat (w : Word) : (fieldN w).toNat = w.toNat % 16 := by
  simp [fieldN, BitVec.extractLsb'_toNat]

theorem fieldNN_toNat (w : Word) : (fieldNN w).toNat = w.toNat % 256 := by
  simp [fieldNN, BitVec.extractLsb'_toNat]

theorem fieldNNN_toNat (w : Word) : (fieldNNN w).toNat = w.toNat % 4096 := by
  simp [fieldNNN, BitVec.extractLsb'_toNat]

/-! ### Fields of a word in format NNN -/

@[simp] theorem fieldGroup_wordNNN (g : BitVec 4) (nnn : Addr) : fieldGroup (wordNNN g nnn) = g := by
  apply BitVec.eq_of_toNat_eq
  rw [fieldGroup_toNat, wordNNN_toNat]
  omega

@[simp] theorem fieldNNN_wordNNN (g : BitVec 4) (nnn : Addr) : fieldNNN (wordNNN g nnn) = nnn := by
  apply BitVec.eq_of_toNat_eq
  rw [fieldNNN_toNat, wordNNN_toNat]
  omega

/-! ### Fields of a word in formats XNN and X -/

@[simp] theorem fieldGroup_wordXNN (g : BitVec 4) (x : Reg) (nn : Byte) : fieldGroup (wordXNN g x nn) = g := by
  apply BitVec.eq_of_toNat_eq
  rw [fieldGroup_toNat, wordXNN_toNat]
  omega

@[simp] theorem fieldX_wordXNN (g : BitVec 4) (x : Reg) (nn : Byte) : fieldX (wordXNN g x nn) = x := by
  apply Fin.ext
  rw [fieldX_val, wordXNN_toNat]
  omega

@[simp] theorem fieldNN_wordXNN (g : BitVec 4) (x : Reg) (nn : Byte) : fieldNN (wordXNN g x nn) = nn := by
  apply BitVec.eq_of_toNat_eq
  rw [fieldNN_toNat, wordXNN_toNat]
  omega

/-! ### Fields of a word in formats XY and XYN -/

@[simp] theorem fieldGroup_wordXYN (g : BitVec 4) (x y : Reg) (n : Nibble) : fieldGroup (wordXYN g x y n) = g := by
  apply BitVec.eq_of_toNat_eq
  rw [fieldGroup_toNat, wordXYN_toNat]
  omega

@[simp] theorem fieldX_wordXYN (g : BitVec 4) (x y : Reg) (n : Nibble) : fieldX (wordXYN g x y n) = x := by
  apply Fin.ext
  rw [fieldX_val, wordXYN_toNat]
  omega

@[simp] theorem fieldY_wordXYN (g : BitVec 4) (x y : Reg) (n : Nibble) : fieldY (wordXYN g x y n) = y := by
  apply Fin.ext
  rw [fieldY_val, wordXYN_toNat]
  omega

@[simp] theorem fieldN_wordXYN (g : BitVec 4) (x y : Reg) (n : Nibble) : fieldN (wordXYN g x y n) = n := by
  apply BitVec.eq_of_toNat_eq
  rw [fieldN_toNat, wordXYN_toNat]
  omega

/-! ### A word is its fields (R81) -/

theorem word_eq_wordNNN (w : Word) : w = wordNNN (fieldGroup w) (fieldNNN w) := by
  apply BitVec.eq_of_toNat_eq
  rw [wordNNN_toNat, fieldGroup_toNat, fieldNNN_toNat]
  omega

theorem word_eq_wordXNN (w : Word) : w = wordXNN (fieldGroup w) (fieldX w) (fieldNN w) := by
  apply BitVec.eq_of_toNat_eq
  rw [wordXNN_toNat, fieldGroup_toNat, fieldX_val, fieldNN_toNat]
  omega

theorem word_eq_wordXYN (w : Word) : w = wordXYN (fieldGroup w) (fieldX w) (fieldY w) (fieldN w) := by
  apply BitVec.eq_of_toNat_eq
  rw [wordXYN_toNat, fieldGroup_toNat, fieldX_val, fieldY_val, fieldN_toNat]
  omega

/-! ### Masks of the opcode map on built words (R87) -/

theorem wordNNN_and (g h : BitVec 4) (a b : Addr) : wordNNN g a &&& wordNNN h b = wordNNN (g &&& h) (a &&& b) :=
  BitVec.and_append

theorem wordXNN_and (g h : BitVec 4) (x y : Reg) (a b : Byte) :
    wordXNN g x a &&& wordXNN h y b = wordXNN (g &&& h) (regBits x &&& regBits y).toFin (a &&& b) := by
  show (g ++ regBits x ++ a) &&& (h ++ regBits y ++ b) = (g &&& h) ++ (regBits x &&& regBits y) ++ (a &&& b)
  rw [BitVec.and_append, BitVec.and_append]

theorem wordXYN_and (g h : BitVec 4) (x x' y y' : Reg) (a b : Nibble) :
    wordXYN g x y a &&& wordXYN h x' y' b =
      wordXYN (g &&& h) (regBits x &&& regBits x').toFin (regBits y &&& regBits y').toFin (a &&& b) := by
  show (g ++ regBits x ++ regBits y ++ a) &&& (h ++ regBits x' ++ regBits y' ++ b) =
    (g &&& h) ++ (regBits x &&& regBits x') ++ (regBits y &&& regBits y') ++ (a &&& b)
  rw [BitVec.and_append, BitVec.and_append, BitVec.and_append]

/-- The mask 0xF000 keeps the group. -/
theorem word_and_F000 (w : Word) : w &&& 0xF000 = wordNNN (fieldGroup w) 0 := by
  conv_lhs => rw [word_eq_wordNNN w, show (0xF000 : Word) = wordNNN 0xF 0 from rfl, wordNNN_and]
  rw [show (0xF : BitVec 4) = BitVec.allOnes 4 from rfl, BitVec.and_allOnes, show (0 : Addr) = 0#12 from rfl,
    BitVec.and_zero]

/-- The mask 0xF00F keeps the group and n. -/
theorem word_and_F00F (w : Word) : w &&& 0xF00F = wordXYN (fieldGroup w) 0 0 (fieldN w) := by
  conv_lhs => rw [word_eq_wordXYN w, show (0xF00F : Word) = wordXYN 0xF 0 0 0xF from rfl, wordXYN_and]
  rw [show (0xF : BitVec 4) = BitVec.allOnes 4 from rfl, BitVec.and_allOnes, BitVec.and_allOnes,
    show regBits 0 = 0#4 from rfl, BitVec.and_zero, BitVec.and_zero]
  rfl

/-- The mask 0xF0FF keeps the group and nn. -/
theorem word_and_F0FF (w : Word) : w &&& 0xF0FF = wordXNN (fieldGroup w) 0 (fieldNN w) := by
  conv_lhs => rw [word_eq_wordXNN w, show (0xF0FF : Word) = wordXNN 0xF 0 0xFF from rfl, wordXNN_and]
  rw [show (0xF : BitVec 4) = BitVec.allOnes 4 from rfl, show (0xFF : Byte) = BitVec.allOnes 8 from rfl,
    BitVec.and_allOnes, BitVec.and_allOnes, show regBits 0 = 0#4 from rfl, BitVec.and_zero]
  rfl

/-! ### When a word matches a pattern of the opcode map (R87) -/

theorem wordNNN_inj {g h : BitVec 4} {a b : Addr} : wordNNN g a = wordNNN h b ↔ g = h ∧ a = b := by
  constructor
  · intro e
    exact ⟨by simpa using congrArg fieldGroup e, by simpa using congrArg fieldNNN e⟩
  · rintro ⟨rfl, rfl⟩; rfl

theorem wordXNN_inj {g h : BitVec 4} {x y : Reg} {a b : Byte} :
    wordXNN g x a = wordXNN h y b ↔ g = h ∧ x = y ∧ a = b := by
  constructor
  · intro e
    exact ⟨by simpa using congrArg fieldGroup e, by simpa using congrArg fieldX e, by simpa using congrArg fieldNN e⟩
  · rintro ⟨rfl, rfl, rfl⟩; rfl

theorem wordXYN_inj {g h : BitVec 4} {x x' y y' : Reg} {a b : Nibble} :
    wordXYN g x y a = wordXYN h x' y' b ↔ g = h ∧ x = x' ∧ y = y' ∧ a = b := by
  constructor
  · intro e
    exact ⟨by simpa using congrArg fieldGroup e, by simpa using congrArg fieldX e, by simpa using congrArg fieldY e,
      by simpa using congrArg fieldN e⟩
  · rintro ⟨rfl, rfl, rfl, rfl⟩; rfl

theorem matches_F000 (w : Word) (g : BitVec 4) : w &&& 0xF000 = wordNNN g 0 ↔ fieldGroup w = g := by
  rw [word_and_F000, wordNNN_inj]
  simp

theorem matches_F00F (w : Word) (g : BitVec 4) (n : Nibble) :
    w &&& 0xF00F = wordXYN g 0 0 n ↔ fieldGroup w = g ∧ fieldN w = n := by
  rw [word_and_F00F, wordXYN_inj]
  simp

theorem matches_F0FF (w : Word) (g : BitVec 4) (nn : Byte) :
    w &&& 0xF0FF = wordXNN g 0 nn ↔ fieldGroup w = g ∧ fieldNN w = nn := by
  rw [word_and_F0FF, wordXNN_inj]
  simp

end Sys2Proof
end

