-- ==== Sys2Proof/Laws/State.lean ====
section
/-! SUPPORT. What each field update of Machine/Ops.lean does to each field and to the two accessors `reg` and `memRead`:
one lemma per field per update, so that no proof unfolds a record update. -/

namespace Sys2Proof.Machine

variable (s : State)

/-! ### setReg -/

@[simp] theorem State.setReg_mem (x : Reg) (b : Byte) : (s.setReg x b).mem = s.mem := rfl
@[simp] theorem State.setReg_font (x : Reg) (b : Byte) : (s.setReg x b).font = s.font := rfl
@[simp] theorem State.setReg_generator (x : Reg) (b : Byte) : (s.setReg x b).generator = s.generator := rfl
@[simp] theorem State.setReg_v (x : Reg) (b : Byte) : (s.setReg x b).v = s.v.set x b := rfl
@[simp] theorem State.setReg_i (x : Reg) (b : Byte) : (s.setReg x b).i = s.i := rfl
@[simp] theorem State.setReg_pc (x : Reg) (b : Byte) : (s.setReg x b).pc = s.pc := rfl
@[simp] theorem State.setReg_stack (x : Reg) (b : Byte) : (s.setReg x b).stack = s.stack := rfl
@[simp] theorem State.setReg_sp (x : Reg) (b : Byte) : (s.setReg x b).sp = s.sp := rfl
@[simp] theorem State.setReg_dt (x : Reg) (b : Byte) : (s.setReg x b).dt = s.dt := rfl
@[simp] theorem State.setReg_st (x : Reg) (b : Byte) : (s.setReg x b).st = s.st := rfl
@[simp] theorem State.setReg_display (x : Reg) (b : Byte) : (s.setReg x b).display = s.display := rfl
@[simp] theorem State.setReg_keys (x : Reg) (b : Byte) : (s.setReg x b).keys = s.keys := rfl
@[simp] theorem State.setReg_dirty (x : Reg) (b : Byte) : (s.setReg x b).dirty = s.dirty := rfl
@[simp] theorem State.setReg_paused (x : Reg) (b : Byte) : (s.setReg x b).paused = s.paused := rfl
@[simp] theorem State.setReg_fault (x : Reg) (b : Byte) : (s.setReg x b).fault = s.fault := rfl
@[simp] theorem State.setReg_draws (x : Reg) (b : Byte) : (s.setReg x b).draws = s.draws := rfl
@[simp] theorem State.setReg_events (x : Reg) (b : Byte) : (s.setReg x b).events = s.events := rfl
@[simp] theorem State.setReg_memRead (x : Reg) (b : Byte) (addr : Nat) : (s.setReg x b).memRead addr = s.memRead addr := rfl

/-! ### setI -/

@[simp] theorem State.setI_mem (w : Word) : (s.setI w).mem = s.mem := rfl
@[simp] theorem State.setI_font (w : Word) : (s.setI w).font = s.font := rfl
@[simp] theorem State.setI_generator (w : Word) : (s.setI w).generator = s.generator := rfl
@[simp] theorem State.setI_v (w : Word) : (s.setI w).v = s.v := rfl
@[simp] theorem State.setI_i (w : Word) : (s.setI w).i = w := rfl
@[simp] theorem State.setI_pc (w : Word) : (s.setI w).pc = s.pc := rfl
@[simp] theorem State.setI_stack (w : Word) : (s.setI w).stack = s.stack := rfl
@[simp] theorem State.setI_sp (w : Word) : (s.setI w).sp = s.sp := rfl
@[simp] theorem State.setI_dt (w : Word) : (s.setI w).dt = s.dt := rfl
@[simp] theorem State.setI_st (w : Word) : (s.setI w).st = s.st := rfl
@[simp] theorem State.setI_display (w : Word) : (s.setI w).display = s.display := rfl
@[simp] theorem State.setI_keys (w : Word) : (s.setI w).keys = s.keys := rfl
@[simp] theorem State.setI_dirty (w : Word) : (s.setI w).dirty = s.dirty := rfl
@[simp] theorem State.setI_paused (w : Word) : (s.setI w).paused = s.paused := rfl
@[simp] theorem State.setI_fault (w : Word) : (s.setI w).fault = s.fault := rfl
@[simp] theorem State.setI_draws (w : Word) : (s.setI w).draws = s.draws := rfl
@[simp] theorem State.setI_events (w : Word) : (s.setI w).events = s.events := rfl
@[simp] theorem State.setI_reg (w : Word) (r : Reg) : (s.setI w).reg r = s.reg r := rfl
@[simp] theorem State.setI_memRead (w : Word) (addr : Nat) : (s.setI w).memRead addr = s.memRead addr := rfl

/-! ### setPc -/

@[simp] theorem State.setPc_mem (w : Word) : (s.setPc w).mem = s.mem := rfl
@[simp] theorem State.setPc_font (w : Word) : (s.setPc w).font = s.font := rfl
@[simp] theorem State.setPc_generator (w : Word) : (s.setPc w).generator = s.generator := rfl
@[simp] theorem State.setPc_v (w : Word) : (s.setPc w).v = s.v := rfl
@[simp] theorem State.setPc_i (w : Word) : (s.setPc w).i = s.i := rfl
@[simp] theorem State.setPc_pc (w : Word) : (s.setPc w).pc = w := rfl
@[simp] theorem State.setPc_stack (w : Word) : (s.setPc w).stack = s.stack := rfl
@[simp] theorem State.setPc_sp (w : Word) : (s.setPc w).sp = s.sp := rfl
@[simp] theorem State.setPc_dt (w : Word) : (s.setPc w).dt = s.dt := rfl
@[simp] theorem State.setPc_st (w : Word) : (s.setPc w).st = s.st := rfl
@[simp] theorem State.setPc_display (w : Word) : (s.setPc w).display = s.display := rfl
@[simp] theorem State.setPc_keys (w : Word) : (s.setPc w).keys = s.keys := rfl
@[simp] theorem State.setPc_dirty (w : Word) : (s.setPc w).dirty = s.dirty := rfl
@[simp] theorem State.setPc_paused (w : Word) : (s.setPc w).paused = s.paused := rfl
@[simp] theorem State.setPc_fault (w : Word) : (s.setPc w).fault = s.fault := rfl
@[simp] theorem State.setPc_draws (w : Word) : (s.setPc w).draws = s.draws := rfl
@[simp] theorem State.setPc_events (w : Word) : (s.setPc w).events = s.events := rfl
@[simp] theorem State.setPc_reg (w : Word) (r : Reg) : (s.setPc w).reg r = s.reg r := rfl
@[simp] theorem State.setPc_memRead (w : Word) (addr : Nat) : (s.setPc w).memRead addr = s.memRead addr := rfl

/-! ### setDt -/

@[simp] theorem State.setDt_mem (b : Byte) : (s.setDt b).mem = s.mem := rfl
@[simp] theorem State.setDt_font (b : Byte) : (s.setDt b).font = s.font := rfl
@[simp] theorem State.setDt_generator (b : Byte) : (s.setDt b).generator = s.generator := rfl
@[simp] theorem State.setDt_v (b : Byte) : (s.setDt b).v = s.v := rfl
@[simp] theorem State.setDt_i (b : Byte) : (s.setDt b).i = s.i := rfl
@[simp] theorem State.setDt_pc (b : Byte) : (s.setDt b).pc = s.pc := rfl
@[simp] theorem State.setDt_stack (b : Byte) : (s.setDt b).stack = s.stack := rfl
@[simp] theorem State.setDt_sp (b : Byte) : (s.setDt b).sp = s.sp := rfl
@[simp] theorem State.setDt_dt (b : Byte) : (s.setDt b).dt = b := rfl
@[simp] theorem State.setDt_st (b : Byte) : (s.setDt b).st = s.st := rfl
@[simp] theorem State.setDt_display (b : Byte) : (s.setDt b).display = s.display := rfl
@[simp] theorem State.setDt_keys (b : Byte) : (s.setDt b).keys = s.keys := rfl
@[simp] theorem State.setDt_dirty (b : Byte) : (s.setDt b).dirty = s.dirty := rfl
@[simp] theorem State.setDt_paused (b : Byte) : (s.setDt b).paused = s.paused := rfl
@[simp] theorem State.setDt_fault (b : Byte) : (s.setDt b).fault = s.fault := rfl
@[simp] theorem State.setDt_draws (b : Byte) : (s.setDt b).draws = s.draws := rfl
@[simp] theorem State.setDt_events (b : Byte) : (s.setDt b).events = s.events := rfl
@[simp] theorem State.setDt_reg (b : Byte) (r : Reg) : (s.setDt b).reg r = s.reg r := rfl
@[simp] theorem State.setDt_memRead (b : Byte) (addr : Nat) : (s.setDt b).memRead addr = s.memRead addr := rfl

/-! ### setSt -/

@[simp] theorem State.setSt_mem (b : Byte) : (s.setSt b).mem = s.mem := rfl
@[simp] theorem State.setSt_font (b : Byte) : (s.setSt b).font = s.font := rfl
@[simp] theorem State.setSt_generator (b : Byte) : (s.setSt b).generator = s.generator := rfl
@[simp] theorem State.setSt_v (b : Byte) : (s.setSt b).v = s.v := rfl
@[simp] theorem State.setSt_i (b : Byte) : (s.setSt b).i = s.i := rfl
@[simp] theorem State.setSt_pc (b : Byte) : (s.setSt b).pc = s.pc := rfl
@[simp] theorem State.setSt_stack (b : Byte) : (s.setSt b).stack = s.stack := rfl
@[simp] theorem State.setSt_sp (b : Byte) : (s.setSt b).sp = s.sp := rfl
@[simp] theorem State.setSt_dt (b : Byte) : (s.setSt b).dt = s.dt := rfl
@[simp] theorem State.setSt_st (b : Byte) : (s.setSt b).st = b := rfl
@[simp] theorem State.setSt_display (b : Byte) : (s.setSt b).display = s.display := rfl
@[simp] theorem State.setSt_keys (b : Byte) : (s.setSt b).keys = s.keys := rfl
@[simp] theorem State.setSt_dirty (b : Byte) : (s.setSt b).dirty = s.dirty := rfl
@[simp] theorem State.setSt_paused (b : Byte) : (s.setSt b).paused = s.paused := rfl
@[simp] theorem State.setSt_fault (b : Byte) : (s.setSt b).fault = s.fault := rfl
@[simp] theorem State.setSt_draws (b : Byte) : (s.setSt b).draws = s.draws := rfl
@[simp] theorem State.setSt_events (b : Byte) : (s.setSt b).events = s.events := rfl
@[simp] theorem State.setSt_reg (b : Byte) (r : Reg) : (s.setSt b).reg r = s.reg r := rfl
@[simp] theorem State.setSt_memRead (b : Byte) (addr : Nat) : (s.setSt b).memRead addr = s.memRead addr := rfl

/-! ### setMem -/

@[simp] theorem State.setMem_mem (m : Memory) : (s.setMem m).mem = m := rfl
@[simp] theorem State.setMem_font (m : Memory) : (s.setMem m).font = s.font := rfl
@[simp] theorem State.setMem_generator (m : Memory) : (s.setMem m).generator = s.generator := rfl
@[simp] theorem State.setMem_v (m : Memory) : (s.setMem m).v = s.v := rfl
@[simp] theorem State.setMem_i (m : Memory) : (s.setMem m).i = s.i := rfl
@[simp] theorem State.setMem_pc (m : Memory) : (s.setMem m).pc = s.pc := rfl
@[simp] theorem State.setMem_stack (m : Memory) : (s.setMem m).stack = s.stack := rfl
@[simp] theorem State.setMem_sp (m : Memory) : (s.setMem m).sp = s.sp := rfl
@[simp] theorem State.setMem_dt (m : Memory) : (s.setMem m).dt = s.dt := rfl
@[simp] theorem State.setMem_st (m : Memory) : (s.setMem m).st = s.st := rfl
@[simp] theorem State.setMem_display (m : Memory) : (s.setMem m).display = s.display := rfl
@[simp] theorem State.setMem_keys (m : Memory) : (s.setMem m).keys = s.keys := rfl
@[simp] theorem State.setMem_dirty (m : Memory) : (s.setMem m).dirty = s.dirty := rfl
@[simp] theorem State.setMem_paused (m : Memory) : (s.setMem m).paused = s.paused := rfl
@[simp] theorem State.setMem_fault (m : Memory) : (s.setMem m).fault = s.fault := rfl
@[simp] theorem State.setMem_draws (m : Memory) : (s.setMem m).draws = s.draws := rfl
@[simp] theorem State.setMem_events (m : Memory) : (s.setMem m).events = s.events := rfl
@[simp] theorem State.setMem_reg (m : Memory) (r : Reg) : (s.setMem m).reg r = s.reg r := rfl

/-! ### setStack -/

@[simp] theorem State.setStack_mem (k : Vector Word Config.stackDepth) : (s.setStack k).mem = s.mem := rfl
@[simp] theorem State.setStack_font (k : Vector Word Config.stackDepth) : (s.setStack k).font = s.font := rfl
@[simp] theorem State.setStack_generator (k : Vector Word Config.stackDepth) : (s.setStack k).generator = s.generator := rfl
@[simp] theorem State.setStack_v (k : Vector Word Config.stackDepth) : (s.setStack k).v = s.v := rfl
@[simp] theorem State.setStack_i (k : Vector Word Config.stackDepth) : (s.setStack k).i = s.i := rfl
@[simp] theorem State.setStack_pc (k : Vector Word Config.stackDepth) : (s.setStack k).pc = s.pc := rfl
@[simp] theorem State.setStack_stack (k : Vector Word Config.stackDepth) : (s.setStack k).stack = k := rfl
@[simp] theorem State.setStack_sp (k : Vector Word Config.stackDepth) : (s.setStack k).sp = s.sp := rfl
@[simp] theorem State.setStack_dt (k : Vector Word Config.stackDepth) : (s.setStack k).dt = s.dt := rfl
@[simp] theorem State.setStack_st (k : Vector Word Config.stackDepth) : (s.setStack k).st = s.st := rfl
@[simp] theorem State.setStack_display (k : Vector Word Config.stackDepth) : (s.setStack k).display = s.display := rfl
@[simp] theorem State.setStack_keys (k : Vector Word Config.stackDepth) : (s.setStack k).keys = s.keys := rfl
@[simp] theorem State.setStack_dirty (k : Vector Word Config.stackDepth) : (s.setStack k).dirty = s.dirty := rfl
@[simp] theorem State.setStack_paused (k : Vector Word Config.stackDepth) : (s.setStack k).paused = s.paused := rfl
@[simp] theorem State.setStack_fault (k : Vector Word Config.stackDepth) : (s.setStack k).fault = s.fault := rfl
@[simp] theorem State.setStack_draws (k : Vector Word Config.stackDepth) : (s.setStack k).draws = s.draws := rfl
@[simp] theorem State.setStack_events (k : Vector Word Config.stackDepth) : (s.setStack k).events = s.events := rfl
@[simp] theorem State.setStack_reg (k : Vector Word Config.stackDepth) (r : Reg) : (s.setStack k).reg r = s.reg r := rfl
@[simp] theorem State.setStack_memRead (k : Vector Word Config.stackDepth) (addr : Nat) : (s.setStack k).memRead addr = s.memRead addr := rfl

/-! ### setSp -/

@[simp] theorem State.setSp_mem (n : Fin 17) : (s.setSp n).mem = s.mem := rfl
@[simp] theorem State.setSp_font (n : Fin 17) : (s.setSp n).font = s.font := rfl
@[simp] theorem State.setSp_generator (n : Fin 17) : (s.setSp n).generator = s.generator := rfl
@[simp] theorem State.setSp_v (n : Fin 17) : (s.setSp n).v = s.v := rfl
@[simp] theorem State.setSp_i (n : Fin 17) : (s.setSp n).i = s.i := rfl
@[simp] theorem State.setSp_pc (n : Fin 17) : (s.setSp n).pc = s.pc := rfl
@[simp] theorem State.setSp_stack (n : Fin 17) : (s.setSp n).stack = s.stack := rfl
@[simp] theorem State.setSp_sp (n : Fin 17) : (s.setSp n).sp = n := rfl
@[simp] theorem State.setSp_dt (n : Fin 17) : (s.setSp n).dt = s.dt := rfl
@[simp] theorem State.setSp_st (n : Fin 17) : (s.setSp n).st = s.st := rfl
@[simp] theorem State.setSp_display (n : Fin 17) : (s.setSp n).display = s.display := rfl
@[simp] theorem State.setSp_keys (n : Fin 17) : (s.setSp n).keys = s.keys := rfl
@[simp] theorem State.setSp_dirty (n : Fin 17) : (s.setSp n).dirty = s.dirty := rfl
@[simp] theorem State.setSp_paused (n : Fin 17) : (s.setSp n).paused = s.paused := rfl
@[simp] theorem State.setSp_fault (n : Fin 17) : (s.setSp n).fault = s.fault := rfl
@[simp] theorem State.setSp_draws (n : Fin 17) : (s.setSp n).draws = s.draws := rfl
@[simp] theorem State.setSp_events (n : Fin 17) : (s.setSp n).events = s.events := rfl
@[simp] theorem State.setSp_reg (n : Fin 17) (r : Reg) : (s.setSp n).reg r = s.reg r := rfl
@[simp] theorem State.setSp_memRead (n : Fin 17) (addr : Nat) : (s.setSp n).memRead addr = s.memRead addr := rfl

/-! ### setDisplay -/

@[simp] theorem State.setDisplay_mem (g : Grid) : (s.setDisplay g).mem = s.mem := rfl
@[simp] theorem State.setDisplay_font (g : Grid) : (s.setDisplay g).font = s.font := rfl
@[simp] theorem State.setDisplay_generator (g : Grid) : (s.setDisplay g).generator = s.generator := rfl
@[simp] theorem State.setDisplay_v (g : Grid) : (s.setDisplay g).v = s.v := rfl
@[simp] theorem State.setDisplay_i (g : Grid) : (s.setDisplay g).i = s.i := rfl
@[simp] theorem State.setDisplay_pc (g : Grid) : (s.setDisplay g).pc = s.pc := rfl
@[simp] theorem State.setDisplay_stack (g : Grid) : (s.setDisplay g).stack = s.stack := rfl
@[simp] theorem State.setDisplay_sp (g : Grid) : (s.setDisplay g).sp = s.sp := rfl
@[simp] theorem State.setDisplay_dt (g : Grid) : (s.setDisplay g).dt = s.dt := rfl
@[simp] theorem State.setDisplay_st (g : Grid) : (s.setDisplay g).st = s.st := rfl
@[simp] theorem State.setDisplay_display (g : Grid) : (s.setDisplay g).display = g := rfl
@[simp] theorem State.setDisplay_keys (g : Grid) : (s.setDisplay g).keys = s.keys := rfl
@[simp] theorem State.setDisplay_dirty (g : Grid) : (s.setDisplay g).dirty = s.dirty := rfl
@[simp] theorem State.setDisplay_paused (g : Grid) : (s.setDisplay g).paused = s.paused := rfl
@[simp] theorem State.setDisplay_fault (g : Grid) : (s.setDisplay g).fault = s.fault := rfl
@[simp] theorem State.setDisplay_draws (g : Grid) : (s.setDisplay g).draws = s.draws := rfl
@[simp] theorem State.setDisplay_events (g : Grid) : (s.setDisplay g).events = s.events := rfl
@[simp] theorem State.setDisplay_reg (g : Grid) (r : Reg) : (s.setDisplay g).reg r = s.reg r := rfl
@[simp] theorem State.setDisplay_memRead (g : Grid) (addr : Nat) : (s.setDisplay g).memRead addr = s.memRead addr := rfl

/-! ### setKeys -/

@[simp] theorem State.setKeys_mem (k : Vector Bool 16) : (s.setKeys k).mem = s.mem := rfl
@[simp] theorem State.setKeys_font (k : Vector Bool 16) : (s.setKeys k).font = s.font := rfl
@[simp] theorem State.setKeys_generator (k : Vector Bool 16) : (s.setKeys k).generator = s.generator := rfl
@[simp] theorem State.setKeys_v (k : Vector Bool 16) : (s.setKeys k).v = s.v := rfl
@[simp] theorem State.setKeys_i (k : Vector Bool 16) : (s.setKeys k).i = s.i := rfl
@[simp] theorem State.setKeys_pc (k : Vector Bool 16) : (s.setKeys k).pc = s.pc := rfl
@[simp] theorem State.setKeys_stack (k : Vector Bool 16) : (s.setKeys k).stack = s.stack := rfl
@[simp] theorem State.setKeys_sp (k : Vector Bool 16) : (s.setKeys k).sp = s.sp := rfl
@[simp] theorem State.setKeys_dt (k : Vector Bool 16) : (s.setKeys k).dt = s.dt := rfl
@[simp] theorem State.setKeys_st (k : Vector Bool 16) : (s.setKeys k).st = s.st := rfl
@[simp] theorem State.setKeys_display (k : Vector Bool 16) : (s.setKeys k).display = s.display := rfl
@[simp] theorem State.setKeys_keys (k : Vector Bool 16) : (s.setKeys k).keys = k := rfl
@[simp] theorem State.setKeys_dirty (k : Vector Bool 16) : (s.setKeys k).dirty = s.dirty := rfl
@[simp] theorem State.setKeys_paused (k : Vector Bool 16) : (s.setKeys k).paused = s.paused := rfl
@[simp] theorem State.setKeys_fault (k : Vector Bool 16) : (s.setKeys k).fault = s.fault := rfl
@[simp] theorem State.setKeys_draws (k : Vector Bool 16) : (s.setKeys k).draws = s.draws := rfl
@[simp] theorem State.setKeys_events (k : Vector Bool 16) : (s.setKeys k).events = s.events := rfl
@[simp] theorem State.setKeys_reg (k : Vector Bool 16) (r : Reg) : (s.setKeys k).reg r = s.reg r := rfl
@[simp] theorem State.setKeys_memRead (k : Vector Bool 16) (addr : Nat) : (s.setKeys k).memRead addr = s.memRead addr := rfl

/-! ### setDirty -/

@[simp] theorem State.setDirty_mem (b : Bool) : (s.setDirty b).mem = s.mem := rfl
@[simp] theorem State.setDirty_font (b : Bool) : (s.setDirty b).font = s.font := rfl
@[simp] theorem State.setDirty_generator (b : Bool) : (s.setDirty b).generator = s.generator := rfl
@[simp] theorem State.setDirty_v (b : Bool) : (s.setDirty b).v = s.v := rfl
@[simp] theorem State.setDirty_i (b : Bool) : (s.setDirty b).i = s.i := rfl
@[simp] theorem State.setDirty_pc (b : Bool) : (s.setDirty b).pc = s.pc := rfl
@[simp] theorem State.setDirty_stack (b : Bool) : (s.setDirty b).stack = s.stack := rfl
@[simp] theorem State.setDirty_sp (b : Bool) : (s.setDirty b).sp = s.sp := rfl
@[simp] theorem State.setDirty_dt (b : Bool) : (s.setDirty b).dt = s.dt := rfl
@[simp] theorem State.setDirty_st (b : Bool) : (s.setDirty b).st = s.st := rfl
@[simp] theorem State.setDirty_display (b : Bool) : (s.setDirty b).display = s.display := rfl
@[simp] theorem State.setDirty_keys (b : Bool) : (s.setDirty b).keys = s.keys := rfl
@[simp] theorem State.setDirty_dirty (b : Bool) : (s.setDirty b).dirty = b := rfl
@[simp] theorem State.setDirty_paused (b : Bool) : (s.setDirty b).paused = s.paused := rfl
@[simp] theorem State.setDirty_fault (b : Bool) : (s.setDirty b).fault = s.fault := rfl
@[simp] theorem State.setDirty_draws (b : Bool) : (s.setDirty b).draws = s.draws := rfl
@[simp] theorem State.setDirty_events (b : Bool) : (s.setDirty b).events = s.events := rfl
@[simp] theorem State.setDirty_reg (b : Bool) (r : Reg) : (s.setDirty b).reg r = s.reg r := rfl
@[simp] theorem State.setDirty_memRead (b : Bool) (addr : Nat) : (s.setDirty b).memRead addr = s.memRead addr := rfl

/-! ### setPaused -/

@[simp] theorem State.setPaused_mem (b : Bool) : (s.setPaused b).mem = s.mem := rfl
@[simp] theorem State.setPaused_font (b : Bool) : (s.setPaused b).font = s.font := rfl
@[simp] theorem State.setPaused_generator (b : Bool) : (s.setPaused b).generator = s.generator := rfl
@[simp] theorem State.setPaused_v (b : Bool) : (s.setPaused b).v = s.v := rfl
@[simp] theorem State.setPaused_i (b : Bool) : (s.setPaused b).i = s.i := rfl
@[simp] theorem State.setPaused_pc (b : Bool) : (s.setPaused b).pc = s.pc := rfl
@[simp] theorem State.setPaused_stack (b : Bool) : (s.setPaused b).stack = s.stack := rfl
@[simp] theorem State.setPaused_sp (b : Bool) : (s.setPaused b).sp = s.sp := rfl
@[simp] theorem State.setPaused_dt (b : Bool) : (s.setPaused b).dt = s.dt := rfl
@[simp] theorem State.setPaused_st (b : Bool) : (s.setPaused b).st = s.st := rfl
@[simp] theorem State.setPaused_display (b : Bool) : (s.setPaused b).display = s.display := rfl
@[simp] theorem State.setPaused_keys (b : Bool) : (s.setPaused b).keys = s.keys := rfl
@[simp] theorem State.setPaused_dirty (b : Bool) : (s.setPaused b).dirty = s.dirty := rfl
@[simp] theorem State.setPaused_paused (b : Bool) : (s.setPaused b).paused = b := rfl
@[simp] theorem State.setPaused_fault (b : Bool) : (s.setPaused b).fault = s.fault := rfl
@[simp] theorem State.setPaused_draws (b : Bool) : (s.setPaused b).draws = s.draws := rfl
@[simp] theorem State.setPaused_events (b : Bool) : (s.setPaused b).events = s.events := rfl
@[simp] theorem State.setPaused_reg (b : Bool) (r : Reg) : (s.setPaused b).reg r = s.reg r := rfl
@[simp] theorem State.setPaused_memRead (b : Bool) (addr : Nat) : (s.setPaused b).memRead addr = s.memRead addr := rfl

/-! ### setFault -/

@[simp] theorem State.setFault_mem (q : Option FaultRecord) : (s.setFault q).mem = s.mem := rfl
@[simp] theorem State.setFault_font (q : Option FaultRecord) : (s.setFault q).font = s.font := rfl
@[simp] theorem State.setFault_generator (q : Option FaultRecord) : (s.setFault q).generator = s.generator := rfl
@[simp] theorem State.setFault_v (q : Option FaultRecord) : (s.setFault q).v = s.v := rfl
@[simp] theorem State.setFault_i (q : Option FaultRecord) : (s.setFault q).i = s.i := rfl
@[simp] theorem State.setFault_pc (q : Option FaultRecord) : (s.setFault q).pc = s.pc := rfl
@[simp] theorem State.setFault_stack (q : Option FaultRecord) : (s.setFault q).stack = s.stack := rfl
@[simp] theorem State.setFault_sp (q : Option FaultRecord) : (s.setFault q).sp = s.sp := rfl
@[simp] theorem State.setFault_dt (q : Option FaultRecord) : (s.setFault q).dt = s.dt := rfl
@[simp] theorem State.setFault_st (q : Option FaultRecord) : (s.setFault q).st = s.st := rfl
@[simp] theorem State.setFault_display (q : Option FaultRecord) : (s.setFault q).display = s.display := rfl
@[simp] theorem State.setFault_keys (q : Option FaultRecord) : (s.setFault q).keys = s.keys := rfl
@[simp] theorem State.setFault_dirty (q : Option FaultRecord) : (s.setFault q).dirty = s.dirty := rfl
@[simp] theorem State.setFault_paused (q : Option FaultRecord) : (s.setFault q).paused = s.paused := rfl
@[simp] theorem State.setFault_fault (q : Option FaultRecord) : (s.setFault q).fault = q := rfl
@[simp] theorem State.setFault_draws (q : Option FaultRecord) : (s.setFault q).draws = s.draws := rfl
@[simp] theorem State.setFault_events (q : Option FaultRecord) : (s.setFault q).events = s.events := rfl
@[simp] theorem State.setFault_reg (q : Option FaultRecord) (r : Reg) : (s.setFault q).reg r = s.reg r := rfl
@[simp] theorem State.setFault_memRead (q : Option FaultRecord) (addr : Nat) : (s.setFault q).memRead addr = s.memRead addr := rfl

/-! ### setDraws -/

@[simp] theorem State.setDraws_mem (n : Nat) : (s.setDraws n).mem = s.mem := rfl
@[simp] theorem State.setDraws_font (n : Nat) : (s.setDraws n).font = s.font := rfl
@[simp] theorem State.setDraws_generator (n : Nat) : (s.setDraws n).generator = s.generator := rfl
@[simp] theorem State.setDraws_v (n : Nat) : (s.setDraws n).v = s.v := rfl
@[simp] theorem State.setDraws_i (n : Nat) : (s.setDraws n).i = s.i := rfl
@[simp] theorem State.setDraws_pc (n : Nat) : (s.setDraws n).pc = s.pc := rfl
@[simp] theorem State.setDraws_stack (n : Nat) : (s.setDraws n).stack = s.stack := rfl
@[simp] theorem State.setDraws_sp (n : Nat) : (s.setDraws n).sp = s.sp := rfl
@[simp] theorem State.setDraws_dt (n : Nat) : (s.setDraws n).dt = s.dt := rfl
@[simp] theorem State.setDraws_st (n : Nat) : (s.setDraws n).st = s.st := rfl
@[simp] theorem State.setDraws_display (n : Nat) : (s.setDraws n).display = s.display := rfl
@[simp] theorem State.setDraws_keys (n : Nat) : (s.setDraws n).keys = s.keys := rfl
@[simp] theorem State.setDraws_dirty (n : Nat) : (s.setDraws n).dirty = s.dirty := rfl
@[simp] theorem State.setDraws_paused (n : Nat) : (s.setDraws n).paused = s.paused := rfl
@[simp] theorem State.setDraws_fault (n : Nat) : (s.setDraws n).fault = s.fault := rfl
@[simp] theorem State.setDraws_draws (n : Nat) : (s.setDraws n).draws = n := rfl
@[simp] theorem State.setDraws_events (n : Nat) : (s.setDraws n).events = s.events := rfl
@[simp] theorem State.setDraws_reg (n : Nat) (r : Reg) : (s.setDraws n).reg r = s.reg r := rfl
@[simp] theorem State.setDraws_memRead (n : Nat) (addr : Nat) : (s.setDraws n).memRead addr = s.memRead addr := rfl

/-! ### emit -/

@[simp] theorem State.emit_mem (e : Event) : (s.emit e).mem = s.mem := rfl
@[simp] theorem State.emit_font (e : Event) : (s.emit e).font = s.font := rfl
@[simp] theorem State.emit_generator (e : Event) : (s.emit e).generator = s.generator := rfl
@[simp] theorem State.emit_v (e : Event) : (s.emit e).v = s.v := rfl
@[simp] theorem State.emit_i (e : Event) : (s.emit e).i = s.i := rfl
@[simp] theorem State.emit_pc (e : Event) : (s.emit e).pc = s.pc := rfl
@[simp] theorem State.emit_stack (e : Event) : (s.emit e).stack = s.stack := rfl
@[simp] theorem State.emit_sp (e : Event) : (s.emit e).sp = s.sp := rfl
@[simp] theorem State.emit_dt (e : Event) : (s.emit e).dt = s.dt := rfl
@[simp] theorem State.emit_st (e : Event) : (s.emit e).st = s.st := rfl
@[simp] theorem State.emit_display (e : Event) : (s.emit e).display = s.display := rfl
@[simp] theorem State.emit_keys (e : Event) : (s.emit e).keys = s.keys := rfl
@[simp] theorem State.emit_dirty (e : Event) : (s.emit e).dirty = s.dirty := rfl
@[simp] theorem State.emit_paused (e : Event) : (s.emit e).paused = s.paused := rfl
@[simp] theorem State.emit_fault (e : Event) : (s.emit e).fault = s.fault := rfl
@[simp] theorem State.emit_draws (e : Event) : (s.emit e).draws = s.draws := rfl
@[simp] theorem State.emit_events (e : Event) : (s.emit e).events = s.events ++ [e] := rfl
@[simp] theorem State.emit_reg (e : Event) (r : Reg) : (s.emit e).reg r = s.reg r := rfl
@[simp] theorem State.emit_memRead (e : Event) (addr : Nat) : (s.emit e).memRead addr = s.memRead addr := rfl

/-! ### Registers after a register write (R8, R20) -/

theorem State.setReg_reg (x : Reg) (b : Byte) (r : Reg) :
    (s.setReg x b).reg r = if x = r then b else s.reg r := by
  simp [State.reg, State.setReg, Vector.getElem_set, Fin.ext_iff]

@[simp] theorem State.setReg_reg_self (x : Reg) (b : Byte) : (s.setReg x b).reg x = b := by
  simp [State.setReg_reg]

theorem State.setReg_reg_ne {x r : Reg} (b : Byte) (h : r ≠ x) : (s.setReg x b).reg r = s.reg r := by
  simp [State.setReg_reg, Ne.symm h]

/-! ### advance -/

@[simp] theorem State.advance_mem : s.advance.mem = s.mem := rfl
@[simp] theorem State.advance_font : s.advance.font = s.font := rfl
@[simp] theorem State.advance_generator : s.advance.generator = s.generator := rfl
@[simp] theorem State.advance_v : s.advance.v = s.v := rfl
@[simp] theorem State.advance_i : s.advance.i = s.i := rfl
@[simp] theorem State.advance_pc : s.advance.pc = s.pc + 2 := rfl
@[simp] theorem State.advance_stack : s.advance.stack = s.stack := rfl
@[simp] theorem State.advance_sp : s.advance.sp = s.sp := rfl
@[simp] theorem State.advance_dt : s.advance.dt = s.dt := rfl
@[simp] theorem State.advance_st : s.advance.st = s.st := rfl
@[simp] theorem State.advance_display : s.advance.display = s.display := rfl
@[simp] theorem State.advance_keys : s.advance.keys = s.keys := rfl
@[simp] theorem State.advance_dirty : s.advance.dirty = s.dirty := rfl
@[simp] theorem State.advance_paused : s.advance.paused = s.paused := rfl
@[simp] theorem State.advance_fault : s.advance.fault = s.fault := rfl
@[simp] theorem State.advance_draws : s.advance.draws = s.draws := rfl
@[simp] theorem State.advance_events : s.advance.events = s.events := rfl
@[simp] theorem State.advance_reg (r : Reg) : s.advance.reg r = s.reg r := rfl
@[simp] theorem State.advance_memRead (addr : Nat) : s.advance.memRead addr = s.memRead addr := rfl

/-! ### skip -/

@[simp] theorem State.skip_mem : s.skip.mem = s.mem := rfl
@[simp] theorem State.skip_font : s.skip.font = s.font := rfl
@[simp] theorem State.skip_generator : s.skip.generator = s.generator := rfl
@[simp] theorem State.skip_v : s.skip.v = s.v := rfl
@[simp] theorem State.skip_i : s.skip.i = s.i := rfl
@[simp] theorem State.skip_pc : s.skip.pc = s.pc + 2 := rfl
@[simp] theorem State.skip_stack : s.skip.stack = s.stack := rfl
@[simp] theorem State.skip_sp : s.skip.sp = s.sp := rfl
@[simp] theorem State.skip_dt : s.skip.dt = s.dt := rfl
@[simp] theorem State.skip_st : s.skip.st = s.st := rfl
@[simp] theorem State.skip_display : s.skip.display = s.display := rfl
@[simp] theorem State.skip_keys : s.skip.keys = s.keys := rfl
@[simp] theorem State.skip_dirty : s.skip.dirty = s.dirty := rfl
@[simp] theorem State.skip_paused : s.skip.paused = s.paused := rfl
@[simp] theorem State.skip_fault : s.skip.fault = s.fault := rfl
@[simp] theorem State.skip_draws : s.skip.draws = s.draws := rfl
@[simp] theorem State.skip_events : s.skip.events = s.events := rfl
@[simp] theorem State.skip_reg (r : Reg) : s.skip.reg r = s.reg r := rfl
@[simp] theorem State.skip_memRead (addr : Nat) : s.skip.memRead addr = s.memRead addr := rfl

/-! ### rewind -/

@[simp] theorem State.rewind_mem : s.rewind.mem = s.mem := rfl
@[simp] theorem State.rewind_font : s.rewind.font = s.font := rfl
@[simp] theorem State.rewind_generator : s.rewind.generator = s.generator := rfl
@[simp] theorem State.rewind_v : s.rewind.v = s.v := rfl
@[simp] theorem State.rewind_i : s.rewind.i = s.i := rfl
@[simp] theorem State.rewind_pc : s.rewind.pc = s.pc - 2 := rfl
@[simp] theorem State.rewind_stack : s.rewind.stack = s.stack := rfl
@[simp] theorem State.rewind_sp : s.rewind.sp = s.sp := rfl
@[simp] theorem State.rewind_dt : s.rewind.dt = s.dt := rfl
@[simp] theorem State.rewind_st : s.rewind.st = s.st := rfl
@[simp] theorem State.rewind_display : s.rewind.display = s.display := rfl
@[simp] theorem State.rewind_keys : s.rewind.keys = s.keys := rfl
@[simp] theorem State.rewind_dirty : s.rewind.dirty = s.dirty := rfl
@[simp] theorem State.rewind_paused : s.rewind.paused = s.paused := rfl
@[simp] theorem State.rewind_fault : s.rewind.fault = s.fault := rfl
@[simp] theorem State.rewind_draws : s.rewind.draws = s.draws := rfl
@[simp] theorem State.rewind_events : s.rewind.events = s.events := rfl
@[simp] theorem State.rewind_reg (r : Reg) : s.rewind.reg r = s.reg r := rfl
@[simp] theorem State.rewind_memRead (addr : Nat) : s.rewind.memRead addr = s.memRead addr := rfl

/-! ### setFlag -/

@[simp] theorem State.setFlag_mem (c : Bool) : (s.setFlag c).mem = s.mem := rfl
@[simp] theorem State.setFlag_font (c : Bool) : (s.setFlag c).font = s.font := rfl
@[simp] theorem State.setFlag_generator (c : Bool) : (s.setFlag c).generator = s.generator := rfl
@[simp] theorem State.setFlag_v (c : Bool) : (s.setFlag c).v = s.v.set vF (flagByte c) := rfl
@[simp] theorem State.setFlag_i (c : Bool) : (s.setFlag c).i = s.i := rfl
@[simp] theorem State.setFlag_pc (c : Bool) : (s.setFlag c).pc = s.pc := rfl
@[simp] theorem State.setFlag_stack (c : Bool) : (s.setFlag c).stack = s.stack := rfl
@[simp] theorem State.setFlag_sp (c : Bool) : (s.setFlag c).sp = s.sp := rfl
@[simp] theorem State.setFlag_dt (c : Bool) : (s.setFlag c).dt = s.dt := rfl
@[simp] theorem State.setFlag_st (c : Bool) : (s.setFlag c).st = s.st := rfl
@[simp] theorem State.setFlag_display (c : Bool) : (s.setFlag c).display = s.display := rfl
@[simp] theorem State.setFlag_keys (c : Bool) : (s.setFlag c).keys = s.keys := rfl
@[simp] theorem State.setFlag_dirty (c : Bool) : (s.setFlag c).dirty = s.dirty := rfl
@[simp] theorem State.setFlag_paused (c : Bool) : (s.setFlag c).paused = s.paused := rfl
@[simp] theorem State.setFlag_fault (c : Bool) : (s.setFlag c).fault = s.fault := rfl
@[simp] theorem State.setFlag_draws (c : Bool) : (s.setFlag c).draws = s.draws := rfl
@[simp] theorem State.setFlag_events (c : Bool) : (s.setFlag c).events = s.events := rfl
@[simp] theorem State.setFlag_memRead (c : Bool) (addr : Nat) : (s.setFlag c).memRead addr = s.memRead addr := rfl
@[simp] theorem State.setFlag_reg_vF (c : Bool) : (s.setFlag c).reg vF = flagByte c := by
  simp [State.setFlag]

theorem State.setFlag_reg_ne (c : Bool) {r : Reg} (h : r ≠ vF) : (s.setFlag c).reg r = s.reg r := by
  simp [State.setFlag, State.setReg_reg_ne _ _ h]

/-! ### memWrite -/

@[simp] theorem State.memWrite_mem (a : Nat) (b : Byte) :
    (s.memWrite a b).mem = s.mem.write s.font (maskAddr a) b := rfl
@[simp] theorem State.memWrite_font (a : Nat) (b : Byte) : (s.memWrite a b).font = s.font := rfl
@[simp] theorem State.memWrite_generator (a : Nat) (b : Byte) : (s.memWrite a b).generator = s.generator := rfl
@[simp] theorem State.memWrite_v (a : Nat) (b : Byte) : (s.memWrite a b).v = s.v := rfl
@[simp] theorem State.memWrite_i (a : Nat) (b : Byte) : (s.memWrite a b).i = s.i := rfl
@[simp] theorem State.memWrite_pc (a : Nat) (b : Byte) : (s.memWrite a b).pc = s.pc := rfl
@[simp] theorem State.memWrite_stack (a : Nat) (b : Byte) : (s.memWrite a b).stack = s.stack := rfl
@[simp] theorem State.memWrite_sp (a : Nat) (b : Byte) : (s.memWrite a b).sp = s.sp := rfl
@[simp] theorem State.memWrite_dt (a : Nat) (b : Byte) : (s.memWrite a b).dt = s.dt := rfl
@[simp] theorem State.memWrite_st (a : Nat) (b : Byte) : (s.memWrite a b).st = s.st := rfl
@[simp] theorem State.memWrite_display (a : Nat) (b : Byte) : (s.memWrite a b).display = s.display := rfl
@[simp] theorem State.memWrite_keys (a : Nat) (b : Byte) : (s.memWrite a b).keys = s.keys := rfl
@[simp] theorem State.memWrite_dirty (a : Nat) (b : Byte) : (s.memWrite a b).dirty = s.dirty := rfl
@[simp] theorem State.memWrite_paused (a : Nat) (b : Byte) : (s.memWrite a b).paused = s.paused := rfl
@[simp] theorem State.memWrite_fault (a : Nat) (b : Byte) : (s.memWrite a b).fault = s.fault := rfl
@[simp] theorem State.memWrite_draws (a : Nat) (b : Byte) : (s.memWrite a b).draws = s.draws := rfl
@[simp] theorem State.memWrite_events (a : Nat) (b : Byte) : (s.memWrite a b).events = s.events := rfl
@[simp] theorem State.memWrite_reg (a : Nat) (b : Byte) (r : Reg) : (s.memWrite a b).reg r = s.reg r := rfl

/-! ### raiseFault: the whole effect of taking a fault (R232) -/

@[simp] theorem State.raiseFault_mem (code : FaultCode) (w : Word) : (s.raiseFault code w).mem = s.mem := rfl
@[simp] theorem State.raiseFault_font (code : FaultCode) (w : Word) : (s.raiseFault code w).font = s.font := rfl
@[simp] theorem State.raiseFault_generator (code : FaultCode) (w : Word) : (s.raiseFault code w).generator = s.generator := rfl
@[simp] theorem State.raiseFault_v (code : FaultCode) (w : Word) : (s.raiseFault code w).v = s.v := rfl
@[simp] theorem State.raiseFault_i (code : FaultCode) (w : Word) : (s.raiseFault code w).i = s.i := rfl
@[simp] theorem State.raiseFault_pc (code : FaultCode) (w : Word) : (s.raiseFault code w).pc = s.pc - 2 := rfl
@[simp] theorem State.raiseFault_stack (code : FaultCode) (w : Word) : (s.raiseFault code w).stack = s.stack := rfl
@[simp] theorem State.raiseFault_sp (code : FaultCode) (w : Word) : (s.raiseFault code w).sp = s.sp := rfl
@[simp] theorem State.raiseFault_dt (code : FaultCode) (w : Word) : (s.raiseFault code w).dt = s.dt := rfl
@[simp] theorem State.raiseFault_st (code : FaultCode) (w : Word) : (s.raiseFault code w).st = s.st := rfl
@[simp] theorem State.raiseFault_display (code : FaultCode) (w : Word) : (s.raiseFault code w).display = s.display := rfl
@[simp] theorem State.raiseFault_keys (code : FaultCode) (w : Word) : (s.raiseFault code w).keys = s.keys := rfl
@[simp] theorem State.raiseFault_dirty (code : FaultCode) (w : Word) : (s.raiseFault code w).dirty = s.dirty := rfl
@[simp] theorem State.raiseFault_paused (code : FaultCode) (w : Word) : (s.raiseFault code w).paused = s.paused := rfl
@[simp] theorem State.raiseFault_fault (code : FaultCode) (w : Word) : (s.raiseFault code w).fault = some ⟨code, w, s.pc - 2⟩ := rfl
@[simp] theorem State.raiseFault_draws (code : FaultCode) (w : Word) : (s.raiseFault code w).draws = s.draws := rfl
@[simp] theorem State.raiseFault_events (code : FaultCode) (w : Word) : (s.raiseFault code w).events = s.events ++ [.faultReport code w (s.pc - 2)] := rfl
@[simp] theorem State.raiseFault_reg (code : FaultCode) (w : Word) (r : Reg) : (s.raiseFault code w).reg r = s.reg r := rfl
@[simp] theorem State.raiseFault_memRead (code : FaultCode) (w : Word) (addr : Nat) : (s.raiseFault code w).memRead addr = s.memRead addr := rfl

/-! ### skipIf: only pc changes (R14) -/

@[simp] theorem State.skipIf_mem (c : Bool) : (State.skipIf c s).mem = s.mem := by cases c <;> rfl
@[simp] theorem State.skipIf_font (c : Bool) : (State.skipIf c s).font = s.font := by cases c <;> rfl
@[simp] theorem State.skipIf_generator (c : Bool) : (State.skipIf c s).generator = s.generator := by cases c <;> rfl
@[simp] theorem State.skipIf_v (c : Bool) : (State.skipIf c s).v = s.v := by cases c <;> rfl
@[simp] theorem State.skipIf_i (c : Bool) : (State.skipIf c s).i = s.i := by cases c <;> rfl
@[simp] theorem State.skipIf_pc (c : Bool) : (State.skipIf c s).pc = if c then s.pc + 2 else s.pc := by
  cases c <;> rfl
@[simp] theorem State.skipIf_stack (c : Bool) : (State.skipIf c s).stack = s.stack := by cases c <;> rfl
@[simp] theorem State.skipIf_sp (c : Bool) : (State.skipIf c s).sp = s.sp := by cases c <;> rfl
@[simp] theorem State.skipIf_dt (c : Bool) : (State.skipIf c s).dt = s.dt := by cases c <;> rfl
@[simp] theorem State.skipIf_st (c : Bool) : (State.skipIf c s).st = s.st := by cases c <;> rfl
@[simp] theorem State.skipIf_display (c : Bool) : (State.skipIf c s).display = s.display := by cases c <;> rfl
@[simp] theorem State.skipIf_keys (c : Bool) : (State.skipIf c s).keys = s.keys := by cases c <;> rfl
@[simp] theorem State.skipIf_dirty (c : Bool) : (State.skipIf c s).dirty = s.dirty := by cases c <;> rfl
@[simp] theorem State.skipIf_paused (c : Bool) : (State.skipIf c s).paused = s.paused := by cases c <;> rfl
@[simp] theorem State.skipIf_fault (c : Bool) : (State.skipIf c s).fault = s.fault := by cases c <;> rfl
@[simp] theorem State.skipIf_draws (c : Bool) : (State.skipIf c s).draws = s.draws := by cases c <;> rfl
@[simp] theorem State.skipIf_events (c : Bool) : (State.skipIf c s).events = s.events := by cases c <;> rfl
@[simp] theorem State.skipIf_reg (c : Bool) (r : Reg) : (State.skipIf c s).reg r = s.reg r := by cases c <;> rfl
@[simp] theorem State.skipIf_memRead (c : Bool) (addr : Nat) : (State.skipIf c s).memRead addr = s.memRead addr := by
  cases c <;> rfl

end Sys2Proof.Machine
end

