-- ==== Sys2Proof/Laws/Display.lean ====
section
/-! SUPPORT. The display buffer and the drawing of a sprite: what a plot, a row and a whole sprite do to every pixel, to the
collision and to the changed flag (44_display.md R191 to R194). -/

namespace Sys2Proof.Machine

/-! ### The grid -/

theorem Grid.pixel_flip (g : Grid) (x x' : Fin 64) (y y' : Fin 32) :
    Grid.pixel (Grid.flip g x y) x' y' = if x = x' ∧ y = y' then !Grid.pixel g x' y' else Grid.pixel g x' y' := by
  by_cases hy : y = y'
  · subst hy
    by_cases hx : x = x'
    · subst hx; simp [Grid.pixel, Grid.flip]
    · have : x.val ≠ x'.val := fun e => hx (Fin.ext e)
      simp [Grid.pixel, Grid.flip, hx, this]
  · have : y.val ≠ y'.val := fun e => hy (Fin.ext e)
    simp [Grid.pixel, Grid.flip, hy, this]

@[simp] theorem blankGrid_pixel (x : Fin 64) (y : Fin 32) : Grid.pixel blankGrid x y = false := by
  simp [Grid.pixel, blankGrid]

theorem Grid.anyLit_iff (g : Grid) : Grid.anyLit g = true ↔ ∃ x y, Grid.pixel g x y = true := by
  simp only [Grid.anyLit, List.any_eq_true, id]
  constructor
  · rintro ⟨row, hrow, b, hb, rfl⟩
    obtain ⟨y, hy, rfl⟩ := List.mem_iff_getElem.mp hrow
    obtain ⟨x, hx, hlit⟩ := List.mem_iff_getElem.mp hb
    exact ⟨⟨x, by simpa using hx⟩, ⟨y, by simpa using hy⟩, by simpa [Grid.pixel] using hlit⟩
  · rintro ⟨x, y, h⟩
    exact ⟨g[y], by simp, g[y][x], by simp, h⟩

/-- Two grids with the same pixels are equal. -/
theorem Grid.ext_pixel {g h : Grid} (e : ∀ x y, Grid.pixel g x y = Grid.pixel h x y) : g = h := by
  apply Vector.ext
  intro y hy
  apply Vector.ext
  intro x hx
  exact e ⟨x, hx⟩ ⟨y, hy⟩

/-! ### What drawing a set of points does

A drawing step is described by the predicate `hit` of the points it inverts. -/

/-- d' is d with exactly the hit pixels of the grid inverted, the collision noted if one of them was lit, and the change
noted if there is one. -/
structure Draws (hit : Nat → Nat → Bool) (d d' : Canvas) : Prop where
  pixel : ∀ (x : Fin 64) (y : Fin 32), Grid.pixel d'.grid x y = (Grid.pixel d.grid x y ^^ hit x.val y.val)
  collided : d'.collided = true ↔
    d.collided = true ∨ ∃ (x : Fin 64) (y : Fin 32), hit x.val y.val = true ∧ Grid.pixel d.grid x y = true
  changed : d'.changed = true ↔ d.changed = true ∨ ∃ (x : Fin 64) (y : Fin 32), hit x.val y.val = true

theorem Draws.none (d : Canvas) : Draws (fun _ _ => false) d d :=
  ⟨by simp, by simp, by simp⟩

/-- Only the points inside the grid count. -/
theorem Draws.congr {h h' : Nat → Nat → Bool} {d d' : Canvas}
    (e : ∀ (x : Fin 64) (y : Fin 32), h x.val y.val = h' x.val y.val) (hd : Draws h d d') : Draws h' d d' := by
  refine ⟨fun x y => by rw [hd.pixel, e], ?_, ?_⟩
  · simp only [hd.collided, e]
  · simp only [hd.changed, e]

/-- Two drawings one after the other that hit no common point draw the points of both. -/
theorem Draws.trans {h1 h2 : Nat → Nat → Bool} {d d' d'' : Canvas} (e1 : Draws h1 d d') (e2 : Draws h2 d' d'')
    (disjoint : ∀ x y, h1 x y = true → h2 x y = false) : Draws (fun x y => h1 x y || h2 x y) d d'' := by
  refine ⟨fun x y => ?_, ?_, ?_⟩
  · rw [e2.pixel, e1.pixel]
    cases c : h1 x.val y.val
    · simp
    · simp [disjoint _ _ c]
  · rw [e2.collided, e1.collided, or_assoc, ← exists_or]
    refine or_congr Iff.rfl (exists_congr fun x => ?_)
    rw [← exists_or]
    refine exists_congr fun y => ?_
    rw [e1.pixel]
    cases c : h1 x.val y.val
    · simp
    · simp [disjoint _ _ c]
  · rw [e2.changed, e1.changed, or_assoc, ← exists_or]
    refine or_congr Iff.rfl (exists_congr fun x => ?_)
    rw [← exists_or]
    exact exists_congr fun y => by simp

/-! ### One point, one row, one sprite -/

/-- A plot draws its point, or nothing where it falls outside the grid (R193). -/
theorem Canvas.plot_draws (d : Canvas) (px py : Nat) :
    Draws (fun x y => decide (x = px) && decide (y = py)) d (d.plot px py) := by
  by_cases h : px < Config.displayWidth ∧ py < Config.displayHeight
  · simp only [Canvas.plot, dif_pos h]
    refine ⟨fun x y => ?_, ?_, ?_⟩
    · rw [Grid.pixel_flip]
      by_cases hx : x.val = px <;> by_cases hy : y.val = py <;>
        simp [Fin.ext_iff, hx, hy, eq_comm, Ne.symm]
    · simp only [Bool.or_eq_true, Bool.and_eq_true, decide_eq_true_eq]
      refine or_congr Iff.rfl ⟨fun e => ⟨⟨px, h.1⟩, ⟨py, h.2⟩, ⟨rfl, rfl⟩, e⟩, ?_⟩
      rintro ⟨x, y, ⟨rfl, rfl⟩, e⟩
      exact e
    · simp only [true_iff, Bool.and_eq_true, decide_eq_true_eq]
      exact .inr ⟨⟨px, h.1⟩, ⟨py, h.2⟩, rfl, rfl⟩
  · simp only [Canvas.plot, dif_neg h]
    refine (Draws.none d).congr fun x y => ?_
    by_cases hx : x.val = px <;> by_cases hy : y.val = py
    · exact absurd ⟨hx ▸ x.isLt, hy ▸ y.isLt⟩ h
    all_goals simp [hx, hy]

/-- The columns c < n of a sprite row that are set, drawn from column x0. -/
def rowHitsBelow (n : Nat) (b : Byte) (x0 px : Nat) : Bool :=
  decide (x0 ≤ px) && decide (px < x0 + n) && b.getLsbD (7 - (px - x0))

theorem Canvas.plotRow_draws_below (d : Canvas) (b : Byte) (x0 py : Nat) :
    ∀ n, Draws (fun x y => decide (y = py) && rowHitsBelow n b x0 x) d
      ((List.range n).foldl (fun d c => if b.getLsbD (7 - c) then d.plot (x0 + c) py else d) d) := by
  intro n
  induction n with
  | zero =>
    refine (Draws.none d).congr fun x y => ?_
    have : ¬(x0 ≤ x.val ∧ x.val < x0 + 0) := by omega
    simp only [rowHitsBelow, ← Bool.decide_and, this, decide_false, Bool.false_and, Bool.and_false]
  | succ n ih =>
    rw [List.range_succ, List.foldl_append]
    simp only [List.foldl_cons, List.foldl_nil]
    have step : Draws (fun x y => decide (y = py) && (decide (x = x0 + n) && b.getLsbD (7 - n)))
        ((List.range n).foldl (fun d c => if b.getLsbD (7 - c) then d.plot (x0 + c) py else d) d)
        (if b.getLsbD (7 - n) then
          ((List.range n).foldl (fun d c => if b.getLsbD (7 - c) then d.plot (x0 + c) py else d) d).plot (x0 + n) py
        else (List.range n).foldl (fun d c => if b.getLsbD (7 - c) then d.plot (x0 + c) py else d) d) := by
      cases hb : b.getLsbD (7 - n)
      · simpa using Draws.none _
      · refine (Canvas.plot_draws _ _ _).congr fun x y => ?_
        simp [Bool.and_comm]
    refine (ih.trans step ?_).congr fun x y => ?_
    · intro x y h
      simp only [rowHitsBelow, Bool.and_eq_true, decide_eq_true_eq] at h
      have : x ≠ x0 + n := by omega
      simp [this]
    · by_cases hy : y.val = py
      · by_cases hx : x.val = x0 + n
        · simp [rowHitsBelow, hy, hx]
        · have : (x.val < x0 + (n + 1)) ↔ (x.val < x0 + n) := by omega
          simp [rowHitsBelow, hy, hx, this]
      · simp [hy]

/-- A row draws its set bits that fall inside the grid, bit 7 at column x0 (R192, R193). -/
theorem Canvas.plotRow_draws (d : Canvas) (b : Byte) (x0 py : Nat) :
    Draws (fun x y => decide (y = py) && rowHits b x0 x) d (d.plotRow b x0 py) :=
  Canvas.plotRow_draws_below d b x0 py 8

/-- A sprite draws its rows from row py down (R191). -/
theorem Canvas.plotRows_draws (x0 : Nat) (rows : List Byte) :
    ∀ (d : Canvas) (py : Nat), Draws (fun x y => spriteHits rows x0 py x y) d (d.plotRows x0 py rows) := by
  induction rows with
  | nil =>
    intro d py
    exact (Draws.none d).congr fun x y => by simp [spriteHits]
  | cons b rows ih =>
    intro d py
    refine ((Canvas.plotRow_draws d b x0 py).trans (ih _ (py + 1)) ?_).congr fun x y => ?_
    · intro x y h
      simp only [Bool.and_eq_true, decide_eq_true_eq] at h
      have : ¬(py + 1 ≤ y) := by omega
      simp [spriteHits, this]
    · by_cases hy : y.val = py
      · have : ¬(py + 1 ≤ y.val) := by omega
        simp [spriteHits, hy]
      · by_cases hlt : py + 1 ≤ y.val
        · have e : y.val - py = (y.val - (py + 1)) + 1 := by omega
          have hle : py ≤ y.val := by omega
          simp [spriteHits, hy, hlt, hle, e]
        · have hle : ¬(py ≤ y.val) := by omega
          simp [spriteHits, hy, hlt, hle]

/-- The rows DXYN reads, drawn at its coordinates, hit what `drawHits` says (R192). -/
theorem State.spriteHits_spriteRows (s : State) (x y : Reg) (n : Nibble) (px py : Nat) :
    spriteHits (s.spriteRows n) (s.reg x).toNat (s.reg y).toNat px py = s.drawHits x y n px py := by
  by_cases hle : (s.reg y).toNat ≤ py
  · by_cases hlt : py - (s.reg y).toNat < n.toNat
    · have : py < (s.reg y).toNat + n.toNat := by omega
      simp [spriteHits, State.drawHits, State.spriteRows, State.dataAddr, hle, hlt, this]
    · have : ¬(py < (s.reg y).toNat + n.toNat) := by omega
      simp [spriteHits, State.drawHits, State.spriteRows, hle, hlt, this]
  · simp [spriteHits, State.drawHits, hle]

end Sys2Proof.Machine
end

