-- ==== Sys2Proof/Laws/Memory.lean ====
section
/-! SUPPORT. Memory: a read after a write, the canonical form kept by every memory operation, and what a run of byte
stores can do. -/

namespace Sys2Proof.Machine

/-! ### Lookup after erase and insert -/

theorem Memory.lookup_erase_self (m : Memory) (a : Nat) : Memory.lookup (Memory.erase m a) a = none := by
  induction m with
  | nil => rfl
  | cons c m ih =>
    by_cases h : c.1 = a
    · simpa [Memory.erase, h] using ih
    · simpa [Memory.erase, Memory.lookup, h] using ih

theorem Memory.lookup_erase_ne (m : Memory) {a a' : Nat} (h : a' ≠ a) :
    Memory.lookup (Memory.erase m a) a' = Memory.lookup m a' := by
  induction m with
  | nil => rfl
  | cons c m ih =>
    by_cases hc : c.1 = a
    · have : c.1 ≠ a' := fun e => h (e.symm.trans hc)
      simpa [Memory.erase, hc, Memory.lookup, h.symm] using ih
    · by_cases hc' : c.1 = a'
      · simp [Memory.erase, Memory.lookup, hc', h]
      · simpa [Memory.erase, Memory.lookup, hc, hc'] using ih

theorem Memory.lookup_insert_self (m : Memory) (a : Nat) (b : Byte) (h : Memory.lookup m a = none) :
    Memory.lookup (Memory.insert a b m) a = some b := by
  induction m with
  | nil => simp [Memory.insert, Memory.lookup]
  | cons c m ih =>
    by_cases hc : c.1 = a
    · simp [Memory.lookup, hc] at h
    · have h' : Memory.lookup m a = none := by simpa [Memory.lookup, hc] using h
      by_cases hlt : a < c.1
      · simp [Memory.insert, hlt, Memory.lookup]
      · simpa [Memory.insert, hlt, Memory.lookup, hc] using ih h'

theorem Memory.lookup_insert_ne (m : Memory) {a a' : Nat} (b : Byte) (h : a' ≠ a) :
    Memory.lookup (Memory.insert a b m) a' = Memory.lookup m a' := by
  induction m with
  | nil => simp [Memory.insert, Memory.lookup, h.symm]
  | cons c m ih =>
    by_cases hlt : a < c.1
    · simp [Memory.insert, hlt, Memory.lookup, h.symm]
    · by_cases hc : c.1 = a'
      · simp only [Memory.insert, if_neg hlt]; simp [Memory.lookup, hc]
      · simpa [Memory.insert, hlt, Memory.lookup, hc] using ih

/-! ### Read after write -/

theorem Memory.read_write_self (m : Memory) (f : Font) (a : Nat) (b : Byte) : (Memory.write m f a b).read f a = b := by
  unfold Memory.write
  split
  · next h => simp [Memory.read, Memory.lookup_erase_self, h]
  · simp [Memory.read, Memory.lookup_insert_self _ _ _ (Memory.lookup_erase_self m a)]

theorem Memory.read_write_ne (m : Memory) (f : Font) {a a' : Nat} (b : Byte) (h : a' ≠ a) :
    (Memory.write m f a b).read f a' = Memory.read m f a' := by
  unfold Memory.write
  split
  · simp [Memory.read, Memory.lookup_erase_ne m h]
  · simp [Memory.read, Memory.lookup_insert_ne _ b h, Memory.lookup_erase_ne m h]

/-! ### The canonical form -/

theorem Memory.wfFrom_mono {f : Font} {lo lo' : Nat} (h : lo ≤ lo') :
    ∀ m : Memory, Memory.wfFrom f lo' m = true → Memory.wfFrom f lo m = true
  | [], _ => rfl
  | c :: m, hw => by
    simp only [Memory.wfFrom, Bool.and_eq_true, decide_eq_true_eq] at hw ⊢
    exact ⟨⟨⟨by omega, hw.1.1.2⟩, hw.1.2⟩, hw.2⟩

theorem Memory.wfFrom_erase {f : Font} (a : Nat) :
    ∀ (lo : Nat) (m : Memory), Memory.wfFrom f lo m = true → Memory.wfFrom f lo (Memory.erase m a) = true
  | _, [], _ => rfl
  | lo, c :: m, hw => by
    simp only [Memory.wfFrom, Bool.and_eq_true, decide_eq_true_eq] at hw
    have ih := Memory.wfFrom_erase a (c.1 + 1) m hw.2
    by_cases hc : c.1 = a
    · simpa [Memory.erase, hc] using Memory.wfFrom_mono (by omega) _ ih
    · simp only [Memory.erase, bne_iff_ne, ne_eq, hc, not_false_eq_true, List.filter_cons_of_pos, Memory.wfFrom,
        Bool.and_eq_true, decide_eq_true_eq]
      exact ⟨⟨hw.1.1, by simpa using hw.1.2⟩, ih⟩

theorem Memory.wfFrom_insert {f : Font} {a : Nat} {b : Byte} (ha : a < Config.memSize) (hb : b ≠ unlistedByte f a) :
    ∀ (lo : Nat) (m : Memory), lo ≤ a → Memory.lookup m a = none → Memory.wfFrom f lo m = true →
      Memory.wfFrom f lo (Memory.insert a b m) = true
  | lo, [], hlo, _, _ => by
    simpa [Memory.insert, Memory.wfFrom] using ⟨⟨hlo, ha⟩, hb⟩
  | lo, c :: m, hlo, hl, hw => by
    have hc : c.1 ≠ a := by rintro rfl; simp [Memory.lookup] at hl
    have hl' : Memory.lookup m a = none := by simpa [Memory.lookup, hc] using hl
    simp only [Memory.wfFrom, Bool.and_eq_true, decide_eq_true_eq] at hw
    by_cases hlt : a < c.1
    · simp only [Memory.insert, hlt, if_true, Memory.wfFrom, Bool.and_eq_true, decide_eq_true_eq, bne_iff_ne]
      exact ⟨⟨⟨hlo, ha⟩, hb⟩, ⟨⟨⟨hlt, hw.1.1.2⟩, by simpa using hw.1.2⟩, hw.2⟩⟩
    · simp only [Memory.insert, hlt, if_false, Memory.wfFrom, Bool.and_eq_true, decide_eq_true_eq]
      exact ⟨hw.1, Memory.wfFrom_insert ha hb _ m (by omega) hl' hw.2⟩

/-- A write inside the address space keeps the canonical form. -/
theorem Memory.wf_write (m : Memory) (f : Font) {a : Nat} (b : Byte) (ha : a < Config.memSize) (h : m.wf f = true) :
    (Memory.write m f a b).wf f = true := by
  unfold Memory.write
  split
  · exact Memory.wfFrom_erase a 0 m h
  · next hb =>
    exact Memory.wfFrom_insert ha hb 0 _ (Nat.zero_le a) (Memory.lookup_erase_self m a)
      (Memory.wfFrom_erase a 0 m h)

/-- Memory after Reset has the canonical form, whatever FONT. -/
theorem State.construct_mem_wf (f : Font) (g : Config.Generator) : (State.construct f g).mem.wf f = true := rfl

/-- Memory after Reset reads as FONT below 0x050 and as 0x00 above (R43, R66, R67). -/
theorem State.construct_memRead (f : Font) (g : Config.Generator) {a : Nat} (h : a < Config.memSize) :
    (State.construct f g).memRead a = if h : a < Config.fontSize then f[a] else 0 := by
  simp only [State.memRead, maskAddr, Nat.mod_eq_of_lt h]
  rfl

/-! ### The masked accesses (R9, R62) -/

theorem maskAddr_lt (a : Nat) : maskAddr a < Config.memSize := Nat.mod_lt _ (by decide)

theorem maskAddr_of_lt {a : Nat} (h : a < Config.memSize) : maskAddr a = a := Nat.mod_eq_of_lt h

@[simp] theorem maskAddr_maskAddr (a : Nat) : maskAddr (maskAddr a) = maskAddr a := maskAddr_of_lt (maskAddr_lt a)

theorem State.memRead_mask (s : State) (a : Nat) : s.memRead (maskAddr a) = s.memRead a := by
  simp [State.memRead]

theorem State.memRead_memWrite_same (s : State) {a a' : Nat} (b : Byte) (h : maskAddr a' = maskAddr a) :
    (s.memWrite a b).memRead a' = b := by
  simp [State.memRead, h, Memory.read_write_self]

theorem State.memRead_memWrite_ne (s : State) {a a' : Nat} (b : Byte) (h : maskAddr a' ≠ maskAddr a) :
    (s.memWrite a b).memRead a' = s.memRead a' := by
  simp [State.memRead, Memory.read_write_ne _ _ b h]

theorem State.memWrite_wf (s : State) (a : Nat) (b : Byte) (h : s.mem.wf s.font = true) :
    (s.memWrite a b).mem.wf s.font = true :=
  Memory.wf_write _ _ b (maskAddr_lt a) h

/-! ### Runs of byte stores -/

/-- Storing bytes changes memory alone. -/
theorem State.storeBytes_eq_setMem (bs : List Byte) :
    ∀ (s : State) (a : Nat), s.storeBytes a bs = s.setMem (s.storeBytes a bs).mem := by
  induction bs with
  | nil => intro s a; rfl
  | cons b bs ih => intro s a; rw [State.storeBytes, ih]; rfl

@[simp] theorem State.storeBytes_font (s : State) (a : Nat) (bs : List Byte) : (s.storeBytes a bs).font = s.font := by
  rw [State.storeBytes_eq_setMem]; rfl

@[simp] theorem State.storeBytes_generator (s : State) (a : Nat) (bs : List Byte) :
    (s.storeBytes a bs).generator = s.generator := by
  rw [State.storeBytes_eq_setMem]; rfl

@[simp] theorem State.storeBytes_v (s : State) (a : Nat) (bs : List Byte) : (s.storeBytes a bs).v = s.v := by
  rw [State.storeBytes_eq_setMem]; rfl

@[simp] theorem State.storeBytes_i (s : State) (a : Nat) (bs : List Byte) : (s.storeBytes a bs).i = s.i := by
  rw [State.storeBytes_eq_setMem]; rfl

@[simp] theorem State.storeBytes_pc (s : State) (a : Nat) (bs : List Byte) : (s.storeBytes a bs).pc = s.pc := by
  rw [State.storeBytes_eq_setMem]; rfl

@[simp] theorem State.storeBytes_stack (s : State) (a : Nat) (bs : List Byte) : (s.storeBytes a bs).stack = s.stack := by
  rw [State.storeBytes_eq_setMem]; rfl

@[simp] theorem State.storeBytes_sp (s : State) (a : Nat) (bs : List Byte) : (s.storeBytes a bs).sp = s.sp := by
  rw [State.storeBytes_eq_setMem]; rfl

@[simp] theorem State.storeBytes_dt (s : State) (a : Nat) (bs : List Byte) : (s.storeBytes a bs).dt = s.dt := by
  rw [State.storeBytes_eq_setMem]; rfl

@[simp] theorem State.storeBytes_st (s : State) (a : Nat) (bs : List Byte) : (s.storeBytes a bs).st = s.st := by
  rw [State.storeBytes_eq_setMem]; rfl

@[simp] theorem State.storeBytes_display (s : State) (a : Nat) (bs : List Byte) : (s.storeBytes a bs).display = s.display := by
  rw [State.storeBytes_eq_setMem]; rfl

@[simp] theorem State.storeBytes_keys (s : State) (a : Nat) (bs : List Byte) : (s.storeBytes a bs).keys = s.keys := by
  rw [State.storeBytes_eq_setMem]; rfl

@[simp] theorem State.storeBytes_dirty (s : State) (a : Nat) (bs : List Byte) : (s.storeBytes a bs).dirty = s.dirty := by
  rw [State.storeBytes_eq_setMem]; rfl

@[simp] theorem State.storeBytes_paused (s : State) (a : Nat) (bs : List Byte) : (s.storeBytes a bs).paused = s.paused := by
  rw [State.storeBytes_eq_setMem]; rfl

@[simp] theorem State.storeBytes_fault (s : State) (a : Nat) (bs : List Byte) : (s.storeBytes a bs).fault = s.fault := by
  rw [State.storeBytes_eq_setMem]; rfl

@[simp] theorem State.storeBytes_draws (s : State) (a : Nat) (bs : List Byte) : (s.storeBytes a bs).draws = s.draws := by
  rw [State.storeBytes_eq_setMem]; rfl

@[simp] theorem State.storeBytes_events (s : State) (a : Nat) (bs : List Byte) : (s.storeBytes a bs).events = s.events := by
  rw [State.storeBytes_eq_setMem]; rfl

@[simp] theorem State.storeBytes_reg (s : State) (a : Nat) (bs : List Byte) (r : Reg) :
    (s.storeBytes a bs).reg r = s.reg r := by
  rw [State.storeBytes_eq_setMem]; rfl

theorem State.storeBytes_wf (bs : List Byte) :
    ∀ (s : State) (a : Nat), s.mem.wf s.font = true → (s.storeBytes a bs).mem.wf s.font = true := by
  induction bs with
  | nil => intro s a h; exact h
  | cons b bs ih => intro s a h; exact ih _ _ (s.memWrite_wf a b h)

/-- A byte outside the addresses stored to reads as before. -/
theorem State.memRead_storeBytes_outside (bs : List Byte) {a' : Nat} :
    ∀ (s : State) (a : Nat), (∀ k, k < bs.length → maskAddr a' ≠ maskAddr (a + k)) →
      (s.storeBytes a bs).memRead a' = s.memRead a' := by
  induction bs with
  | nil => intro s a _; rfl
  | cons b bs ih =>
    intro s a h
    rw [State.storeBytes, ih]
    · exact s.memRead_memWrite_ne b (by simpa using h 0 (by simp))
    · intro k hk
      have := h (k + 1) (by simpa using hk)
      rwa [show a + 1 + k = a + (k + 1) by omega]

/-- Two addresses less than 4096 apart and not equal are different bytes. -/
theorem maskAddr_ne_of_lt {a b : Nat} (h1 : a < b) (h2 : b < a + Config.memSize) : maskAddr a ≠ maskAddr b := by
  simp only [maskAddr, Config.memSize] at *
  omega

/-- Each byte stored reads back, where the run is no longer than memory. -/
theorem State.memRead_storeBytes_inside (bs : List Byte) :
    ∀ (s : State) (a k : Nat) (hk : k < bs.length), bs.length ≤ Config.memSize →
      (s.storeBytes a bs).memRead (a + k) = bs[k] := by
  induction bs with
  | nil => intro s a k hk; simp at hk
  | cons b bs ih =>
    intro s a k hk hl
    rw [List.length_cons] at hl
    rw [State.storeBytes]
    cases k with
    | zero =>
      rw [State.memRead_storeBytes_outside]
      · simpa using s.memRead_memWrite_same (a := a) (a' := a + 0) b rfl
      · intro j hj
        exact maskAddr_ne_of_lt (by omega) (by omega)
    | succ k =>
      have := ih (s.memWrite a b) (a + 1) k (by simpa using hk) (by omega)
      rwa [show a + 1 + k = a + (k + 1) by omega] at this

end Sys2Proof.Machine
end

