-- ==== Sys2Proof/Laws/Operands.lean ====
section
/-! SUPPORT. What each operand form and each flag computation gives, as numbers (30_encoding.md R84, R85;
42_register_alu.md; 43_index_memory.md). -/

namespace Sys2Proof.Machine

/-! ### Immediates -/

@[simp] theorem addrImm_toNat (nnn : Addr) : (addrImm nnn).toNat = nnn.toNat := by
  rw [addrImm, BitVec.toNat_setWidth, Nat.mod_eq_of_lt (by have := nnn.isLt; omega)]

@[simp] theorem byteWord_toNat (b : Byte) : (byteWord b).toNat = b.toNat := by
  rw [byteWord, BitVec.toNat_setWidth, Nat.mod_eq_of_lt (by have := b.isLt; omega)]

/-! ### Data addresses: no update but a write of I changes them -/

theorem State.dataAddr_eq (s : State) (k : Nat) : s.dataAddr k = s.i.toNat + k := rfl

/-! ### The register range V0 to V[x] -/

theorem finRange_getElem? (k : Nat) : (List.finRange 16)[k]? = if h : k < 16 then some ⟨k, h⟩ else none := by
  by_cases h : k < 16
  · simp [h]
  · simp [h]

theorem mem_regRange {x r : Reg} : r ∈ regRange x ↔ r.val ≤ x.val := by
  simp only [regRange, List.mem_iff_getElem?, List.getElem?_take, finRange_getElem?]
  constructor
  · rintro ⟨k, hk⟩
    split at hk
    · split at hk
      · obtain rfl := Option.some.inj hk
        simp only; omega
      · exact absurd hk (by simp)
    · exact absurd hk (by simp)
  · intro h
    exact ⟨r.val, by simp only [Nat.lt_succ_of_le h, if_true, r.isLt, dif_pos]⟩

@[simp] theorem regRange_length (x : Reg) : (regRange x).length = x.val + 1 := by
  simp only [regRange, List.length_take, List.length_finRange]
  omega

theorem regRange_getElem (x : Reg) (k : Nat) (h : k < (regRange x).length) :
    (regRange x)[k] = ⟨k, by rw [regRange_length] at h; omega⟩ := by
  simp [regRange]

theorem regRange_nodup (x : Reg) : (regRange x).Nodup :=
  (List.nodup_finRange 16).sublist (List.take_sublist _ _)

/-! ### Loading registers from memory (R175) -/

/-- The loop of FX65 over any registers: each of them takes the byte at its own offset. Memory and I stay, so the order
of the loads does not matter. -/
theorem loadFold_spec (l : List Reg) (hl : l.Nodup) :
    ∀ s : State, ∃ v, l.foldl (fun t k => t.setReg k (t.memRead (t.dataAddr k.val))) s = { s with v := v } ∧
      ∀ r : Reg, v[r] = if r ∈ l then s.memRead (s.dataAddr r.val) else s.v[r] := by
  induction l with
  | nil => intro s; exact ⟨s.v, rfl, by simp⟩
  | cons k l ih =>
    intro s
    obtain ⟨hk, hl⟩ := List.nodup_cons.mp hl
    obtain ⟨v, hv, hr⟩ := ih hl (s.setReg k (s.memRead (s.dataAddr k.val)))
    refine ⟨v, hv, fun r => ?_⟩
    rw [hr r]
    by_cases hrl : r ∈ l
    · simp [hrl, State.dataAddr]
    · by_cases hrk : r = k
      · subst hrk
        simp [hrl]
      · have : r.val ≠ k.val := fun e => hrk (Fin.ext e)
        simp [hrl, hrk, this.symm]

/-! ### Decimal digits (R173) -/

theorem bcdDigits_toNat (b : Byte) :
    (bcdDigits b).map BitVec.toNat = [b.toNat / 100, b.toNat / 10 % 10, b.toNat % 10] := by
  simp [bcdDigits]

/-! ### Flags -/

theorem flagByte_eq (c : Bool) : flagByte c = if c then 1 else 0 := rfl

theorem carryFlag_iff (a b : Byte) : carryFlag a b = true ↔ a.toNat + b.toNat > 255 := by
  simp only [carryFlag, decide_eq_true_eq]

theorem noBorrowFlag_iff (a b : Byte) : noBorrowFlag a b = true ↔ b.toNat ≤ a.toNat := by
  simp only [noBorrowFlag, decide_eq_true_eq, ge_iff_le]

theorem lowBitFlag_iff (a : Byte) : lowBitFlag a = true ↔ a.toNat % 2 = 1 := by
  rw [lowBitFlag, BitVec.getLsbD, Nat.testBit_zero, decide_eq_true_eq]

theorem highBitFlag_iff (a : Byte) : highBitFlag a = true ↔ 128 ≤ a.toNat := by
  have := a.isLt
  rw [highBitFlag, BitVec.getLsbD, Nat.testBit_eq_decide_div_mod_eq, decide_eq_true_eq]
  omega

theorem pastAddrFlag_iff (i : Word) (b : Byte) : pastAddrFlag i b = true ↔ i.toNat + b.toNat > 0x0FFF := by
  simp only [pastAddrFlag, decide_eq_true_eq]

end Sys2Proof.Machine
end

