-- ==== Sys2Proof/Laws/Stack.lean ====
section
/-! SUPPORT. Everything push and pop can do (10_state.md R29, R30; 41_control_flow.md R120, R121). -/

namespace Sys2Proof.Machine

/-- A push answers exactly when a slot is free. -/
theorem State.push_eq_none (s : State) (w : Word) : s.push w = none ↔ s.sp.val = 16 := by
  have := s.sp.isLt
  by_cases h : s.sp.val < Config.stackDepth
  · simp only [State.push, dif_pos h, reduceCtorEq, false_iff]
    simp only [Config.stackDepth] at h; omega
  · simp only [State.push, dif_neg h, true_iff]
    simp only [Config.stackDepth] at h; omega

/-- A push writes the slot at sp and counts it; nothing else changes. -/
theorem State.push_eq_some (s : State) (w : Word) (h : s.sp.val < 16) :
    s.push w = some ((s.setStack (s.stack.set s.sp.val w h)).setSp ⟨s.sp.val + 1, Nat.succ_lt_succ h⟩) := by
  have h' : s.sp.val < Config.stackDepth := h
  rw [State.push, dif_pos h']

/-- A pop answers exactly when a slot is occupied. -/
theorem State.pop_eq_none (s : State) : s.pop = none ↔ s.sp.val = 0 := by
  by_cases h : 0 < s.sp.val
  · simp only [State.pop, dif_pos h, reduceCtorEq, false_iff]; omega
  · simp only [State.pop, dif_neg h, true_iff]; omega

/-- A pop reads the top slot and uncounts it; the slots and everything else stay. -/
theorem State.pop_eq_some (s : State) (h : 0 < s.sp.val) :
    s.pop = some (s.stack[s.sp.val - 1]'(by have := s.sp.isLt; simp only [Config.stackDepth]; omega),
      s.setSp ⟨s.sp.val - 1, by have := s.sp.isLt; omega⟩) := by
  rw [State.pop, dif_pos h]

end Sys2Proof.Machine
end

