-- ==== Sys2Proof/Laws/Frame.lean ====
section
/-! SUPPORT. The frame of each shared operation, as a footprint: what it may change and that it changes nothing else. A
meaning's frame follows from these by monotonicity and composition. -/

namespace Sys2Proof.Machine

/-- Nothing changes from a state to itself. -/
theorem ChangesOnly.refl (f : Footprint) (s : State) : ChangesOnly f s s := by
  constructor <;> intros <;> rfl

/-- Two changes one after the other, inside one footprint. -/
theorem ChangesOnly.trans {f : Footprint} {s t u : State} (h : ChangesOnly f s t) (k : ChangesOnly f t u) :
    ChangesOnly f s u where
  regs r hr := (k.regs r hr).trans (h.regs r hr)
  i e := (k.i e).trans (h.i e)
  pc e := (k.pc e).trans (h.pc e)
  stack e := (k.stack e).trans (h.stack e)
  sp e := (k.sp e).trans (h.sp e)
  dt e := (k.dt e).trans (h.dt e)
  st e := (k.st e).trans (h.st e)
  display e := (k.display e).trans (h.display e)
  dirty e := (k.dirty e).trans (h.dirty e)
  keys := k.keys.trans h.keys
  font := k.font.trans h.font
  generator := k.generator.trans h.generator
  paused := k.paused.trans h.paused
  fault e := (k.fault e).trans (h.fault e)
  events e := (k.events e).trans (h.events e)
  draws e := (k.draws e).trans (h.draws e)
  memory a ha hb := (k.memory a ha hb).trans (h.memory a ha hb)

theorem ChangesOnly.setReg {f : Footprint} (s : State) {x : Reg} (b : Byte) (hx : x ∈ f.regs) :
    ChangesOnly f s (s.setReg x b) := by
  constructor <;> intros <;> try rfl
  next r hr => exact s.setReg_reg_ne b (fun e => hr (e ▸ hx))

theorem ChangesOnly.setFlag {f : Footprint} (s : State) (c : Bool) (hx : vF ∈ f.regs) : ChangesOnly f s (s.setFlag c) :=
  ChangesOnly.setReg s _ hx

theorem ChangesOnly.setI {f : Footprint} (s : State) (w : Word) (hf : f.i = true) : ChangesOnly f s (s.setI w) := by
  constructor <;> intros <;> first | rfl | simp_all

theorem ChangesOnly.setPc {f : Footprint} (s : State) (w : Word) (hf : f.pc = true) : ChangesOnly f s (s.setPc w) := by
  constructor <;> intros <;> first | rfl | simp_all

theorem ChangesOnly.setDt {f : Footprint} (s : State) (b : Byte) (hf : f.dt = true) : ChangesOnly f s (s.setDt b) := by
  constructor <;> intros <;> first | rfl | simp_all

theorem ChangesOnly.setSt {f : Footprint} (s : State) (b : Byte) (hf : f.st = true) : ChangesOnly f s (s.setSt b) := by
  constructor <;> intros <;> first | rfl | simp_all

theorem ChangesOnly.setStack {f : Footprint} (s : State) (k : Vector Word Config.stackDepth)
    (hf : f.callStack = true) : ChangesOnly f s (s.setStack k) := by
  constructor <;> intros <;> first | rfl | simp_all

theorem ChangesOnly.setSp {f : Footprint} (s : State) (n : Fin 17) (hf : f.callStack = true) :
    ChangesOnly f s (s.setSp n) := by
  constructor <;> intros <;> first | rfl | simp_all

theorem ChangesOnly.setDisplay {f : Footprint} (s : State) (g : Grid) (hf : f.display = true) :
    ChangesOnly f s (s.setDisplay g) := by
  constructor <;> intros <;> first | rfl | simp_all

theorem ChangesOnly.setDirty {f : Footprint} (s : State) (b : Bool) (hf : f.display = true) :
    ChangesOnly f s (s.setDirty b) := by
  constructor <;> intros <;> first | rfl | simp_all

theorem ChangesOnly.setDraws {f : Footprint} (s : State) (n : Nat) (hf : f.draws = true) :
    ChangesOnly f s (s.setDraws n) := by
  constructor <;> intros <;> first | rfl | simp_all

theorem ChangesOnly.skipIf {f : Footprint} (s : State) (c : Bool) (hf : f.pc = true) :
    ChangesOnly f s (State.skipIf c s) := by
  cases c
  · exact ChangesOnly.refl f s
  · exact ChangesOnly.setPc s _ hf

/-- Taking a fault changes pc, the record and the events. -/
theorem ChangesOnly.raiseFault {f : Footprint} (s : State) (code : FaultCode) (w : Word) (hp : f.pc = true)
    (hf : f.record = true) : ChangesOnly f s (s.raiseFault code w) := by
  constructor <;> intros <;> first | rfl | simp_all

/-- A run of byte stores changes exactly the masked addresses it stores to. -/
theorem ChangesOnly.storeBytes {f : Footprint} (s : State) (a : Nat) (bs : List Byte)
    (hf : ∀ k, k < bs.length → maskAddr (a + k) ∈ f.bytes) : ChangesOnly f s (s.storeBytes a bs) := by
  constructor <;> intros <;> try (first | simp only [State.storeBytes_reg] | simp)
  next addr ha hn =>
    refine State.memRead_storeBytes_outside bs s a fun k hk e => hn ?_
    rw [maskAddr_of_lt ha] at e
    exact e ▸ hf k hk

/-- The data bytes of an access from I are the masked addresses I + k. -/
theorem State.mem_dataBytes (s : State) {n k : Nat} (h : k < n) : maskAddr (s.dataAddr 0 + k) ∈ s.dataBytes n := by
  rw [State.dataBytes, List.mem_map]
  exact ⟨k, List.mem_range.mpr h, by simp [State.dataAddr]⟩

/-- The loads of FX65 change exactly the registers loaded. -/
theorem ChangesOnly.loadFold {f : Footprint} (l : List Reg) (hf : ∀ r, r ∈ l → r ∈ f.regs) :
    ∀ s : State, ChangesOnly f s (l.foldl (fun t k => t.setReg k (t.memRead (t.dataAddr k.val))) s) := by
  induction l with
  | nil => intro s; exact ChangesOnly.refl f s
  | cons k l ih =>
    intro s
    exact (ChangesOnly.setReg s _ (hf k (by simp))).trans (ih (fun r hr => hf r (by simp [hr])) _)

end Sys2Proof.Machine
end

