-- ==== Sys2Proof/Laws/HostOps.lean ====
section
/-! SUPPORT. Everything Tick and the loads can do, said once (60_exceptions.md R240; 70_reset_and_hazards.md R276). -/

namespace Sys2Proof.Machine

/-- A paused Tick changes nothing. -/
theorem tick_of_paused {s : State} (h : s.paused = true) : tick s = s := by
  rw [tick, if_pos h]

/-- The delay part of a Tick, as one update. -/
theorem State.tickDelay_eq (s : State) : s.tickDelay = { s with dt := if s.dt = 0 then 0 else s.dt - 1 } := by
  unfold State.tickDelay
  split
  · next h => exact h ▸ rfl
  · rfl

/-- The sound part of a Tick, as one update. -/
theorem State.tickSound_eq (s : State) :
    s.tickSound = { s with st := 0, events := s.events ++ (if s.st = 0 then [] else [.tone s.st]) } := by
  unfold State.tickSound
  split
  · next h => rw [List.append_nil, ← h]
  · rfl

/-- The display part of a Tick, as one update. -/
theorem State.tickDisplay_eq (s : State) :
    s.tickDisplay =
      { s with dirty := false, events := s.events ++ (if s.dirty = true then [.redraw s.display] else []) } := by
  unfold State.tickDisplay
  split
  · rfl
  · next h => rw [List.append_nil, ← Bool.eq_false_of_not_eq_true h]

/-- A Tick that is not paused, as one update. -/
theorem tick_of_not_paused {s : State} (h : s.paused = false) :
    tick s = { s with
      dt := if s.dt = 0 then 0 else s.dt - 1
      st := 0
      dirty := false
      events := s.events ++ (if s.st = 0 then [] else [.tone s.st]) ++
        (if s.dirty = true then [.redraw s.display] else []) } := by
  rw [tick, if_neg (by rw [h]; exact Bool.false_ne_true), State.tickDisplay_eq, State.tickSound_eq, State.tickDelay_eq]

/-- A load changes memory alone. -/
theorem bulkLoad_eq_setMem (offset : Nat) (bytes : List Byte) (s : State) :
    bulkLoad offset bytes s = s.setMem (bulkLoad offset bytes s).mem := by
  unfold bulkLoad
  split
  · exact State.storeBytes_eq_setMem bytes s offset
  · rfl

/-- A load keeps the canonical form. -/
theorem bulkLoad_wf (offset : Nat) (bytes : List Byte) (s : State) (h : s.mem.wf s.font = true) :
    (bulkLoad offset bytes s).mem.wf s.font = true := by
  unfold bulkLoad
  split
  · exact State.storeBytes_wf bytes s offset h
  · exact h

end Sys2Proof.Machine
end

