-- ==== Sys2Proof/Laws/Keys.lean ====
section
/-! SUPPORT. The pressed-key set: membership, the lowest pressed code, KeyDown and KeyUp (10_state.md R35;
45_keypad_timers.md R212, R213; 60_exceptions.md R247, R248). -/

namespace Sys2Proof.Machine

/-- Membership of a value in K: it is a code and that code is pressed. -/
theorem State.pressed_iff (s : State) (b : Byte) :
    s.pressed b = true ↔ ∃ k : Key, k.val = b.toNat ∧ s.keys[k] = true := by
  by_cases h : b.toNat < 16
  · simp only [State.pressed, dif_pos h]
    constructor
    · intro hk; exact ⟨⟨b.toNat, h⟩, rfl, hk⟩
    · rintro ⟨⟨k, hk16⟩, hk, hp⟩
      simp only at hk
      subst hk
      exact hp
  · simp only [State.pressed, dif_neg h, Bool.false_eq_true, false_iff, not_exists, not_and]
    intro k hk
    exact absurd (hk ▸ k.isLt) h

/-- No key is chosen exactly when K is empty. -/
theorem State.chosenKey_eq_none (s : State) : s.chosenKey = none ↔ ∀ k : Key, s.keys[k] = false := by
  simp only [State.chosenKey, List.find?_eq_none, List.mem_finRange, forall_const, Bool.not_eq_true]

/-- The chosen key is pressed, and no lower code is. -/
theorem State.chosenKey_eq_some (s : State) (k : Key) :
    s.chosenKey = some k ↔ s.keys[k] = true ∧ ∀ j : Key, j < k → s.keys[j] = false := by
  constructor
  · intro h
    have h' := List.find?_eq_some_iff_getElem.mp h
    obtain ⟨hk, i, hi, hget, hmin⟩ := h'
    refine ⟨hk, fun j hj => ?_⟩
    simp only [List.getElem_finRange] at hget
    have hji : j.val < i := by
      have := congrArg Fin.val hget
      simp only [Fin.val_cast] at this
      have := Fin.lt_def.mp hj
      omega
    have := hmin j.val hji
    simpa using this
  · rintro ⟨hk, hmin⟩
    apply List.find?_eq_some_iff_getElem.mpr
    refine ⟨hk, k.val, by simp, by simp, fun j hj => ?_⟩
    have := hmin ⟨j, by omega⟩ (Fin.lt_def.mpr hj)
    simpa using this

/-- KeyDown makes its code a member and leaves every other code. -/
theorem keyDown_keys (code : Nat) (s : State) (k : Key) :
    (keyDown code s).keys[k] = if k.val = code then true else s.keys[k] := by
  by_cases h : code < 16
  · simp [keyDown, dif_pos h, State.setKeys, Vector.getElem_set, eq_comm]
  · have : k.val ≠ code := by omega
    simp [keyDown, dif_neg h, this]

/-- KeyUp removes its code and leaves every other code. -/
theorem keyUp_keys (code : Nat) (s : State) (k : Key) :
    (keyUp code s).keys[k] = if k.val = code then false else s.keys[k] := by
  by_cases h : code < 16
  · simp [keyUp, dif_pos h, State.setKeys, Vector.getElem_set, eq_comm]
  · have : k.val ≠ code := by omega
    simp [keyUp, dif_neg h, this]

end Sys2Proof.Machine
end

