-- ==== Sys2Proof/Laws/PerInstr.lean ====
section
/-! SUPPORT. The per-instruction family EncodesRow: each constructor's row is in the opcode map, and the word of every
term of that constructor, with every operand, names that row (30_encoding.md R87). -/

namespace Sys2Proof.Laws

theorem names_of_group {w p : Word} {m : String} (g : BitVec 4) (hp : p = wordNNN g 0) (hw : fieldGroup w = g) :
    OpRow.names ⟨p, 0xF000, m⟩ w = true := by
  simpa [OpRow.names, hp] using (matches_F000 w g).mpr hw

theorem names_of_group_n {w p : Word} {m : String} (g : BitVec 4) (n : Nibble) (hp : p = wordXYN g 0 0 n)
    (hg : fieldGroup w = g) (hn : fieldN w = n) : OpRow.names ⟨p, 0xF00F, m⟩ w = true := by
  simpa [OpRow.names, hp] using (matches_F00F w g n).mpr ⟨hg, hn⟩

theorem names_of_group_nn {w p : Word} {m : String} (g : BitVec 4) (nn : Byte) (hp : p = wordXNN g 0 nn)
    (hg : fieldGroup w = g) (hn : fieldNN w = nn) : OpRow.names ⟨p, 0xF0FF, m⟩ w = true := by
  simpa [OpRow.names, hp] using (matches_F0FF w g nn).mpr ⟨hg, hn⟩

namespace EncodesRow

/-- The row of the instruction is in the opcode map, and the instruction's word names it (R87). -/
def Statement (i : Instr) : Prop := i.row ∈ opcodeTable ∧ i.row.names (encode i) = true

theorem cls : Statement .cls :=
  ⟨by decide, by decide⟩

theorem ret : Statement .ret :=
  ⟨by decide, by decide⟩

theorem jp (nnn : Addr) : Statement (.jp nnn) :=
  ⟨by simp only [Instr.row]; decide, names_of_group 0x1 rfl (fieldGroup_wordNNN _ _)⟩

theorem call (nnn : Addr) : Statement (.call nnn) :=
  ⟨by simp only [Instr.row]; decide, names_of_group 0x2 rfl (fieldGroup_wordNNN _ _)⟩

theorem seByte (x : Reg) (nn : Byte) : Statement (.seByte x nn) :=
  ⟨by simp only [Instr.row]; decide, names_of_group 0x3 rfl (fieldGroup_wordXNN _ _ _)⟩

theorem sneByte (x : Reg) (nn : Byte) : Statement (.sneByte x nn) :=
  ⟨by simp only [Instr.row]; decide, names_of_group 0x4 rfl (fieldGroup_wordXNN _ _ _)⟩

theorem seReg (x y : Reg) : Statement (.seReg x y) :=
  ⟨by simp only [Instr.row]; decide, names_of_group_n 0x5 0x0 rfl (fieldGroup_wordXYN _ _ _ _) (fieldN_wordXYN _ _ _ _)⟩

theorem sneReg (x y : Reg) : Statement (.sneReg x y) :=
  ⟨by simp only [Instr.row]; decide, names_of_group_n 0x9 0x0 rfl (fieldGroup_wordXYN _ _ _ _) (fieldN_wordXYN _ _ _ _)⟩

theorem ldByte (x : Reg) (nn : Byte) : Statement (.ldByte x nn) :=
  ⟨by simp only [Instr.row]; decide, names_of_group 0x6 rfl (fieldGroup_wordXNN _ _ _)⟩

theorem addByte (x : Reg) (nn : Byte) : Statement (.addByte x nn) :=
  ⟨by simp only [Instr.row]; decide, names_of_group 0x7 rfl (fieldGroup_wordXNN _ _ _)⟩

theorem ldReg (x y : Reg) : Statement (.ldReg x y) :=
  ⟨by simp only [Instr.row]; decide, names_of_group_n 0x8 0x0 rfl (fieldGroup_wordXYN _ _ _ _) (fieldN_wordXYN _ _ _ _)⟩

theorem orReg (x y : Reg) : Statement (.orReg x y) :=
  ⟨by simp only [Instr.row]; decide, names_of_group_n 0x8 0x1 rfl (fieldGroup_wordXYN _ _ _ _) (fieldN_wordXYN _ _ _ _)⟩

theorem andReg (x y : Reg) : Statement (.andReg x y) :=
  ⟨by simp only [Instr.row]; decide, names_of_group_n 0x8 0x2 rfl (fieldGroup_wordXYN _ _ _ _) (fieldN_wordXYN _ _ _ _)⟩

theorem xorReg (x y : Reg) : Statement (.xorReg x y) :=
  ⟨by simp only [Instr.row]; decide, names_of_group_n 0x8 0x3 rfl (fieldGroup_wordXYN _ _ _ _) (fieldN_wordXYN _ _ _ _)⟩

theorem addReg (x y : Reg) : Statement (.addReg x y) :=
  ⟨by simp only [Instr.row]; decide, names_of_group_n 0x8 0x4 rfl (fieldGroup_wordXYN _ _ _ _) (fieldN_wordXYN _ _ _ _)⟩

theorem subReg (x y : Reg) : Statement (.subReg x y) :=
  ⟨by simp only [Instr.row]; decide, names_of_group_n 0x8 0x5 rfl (fieldGroup_wordXYN _ _ _ _) (fieldN_wordXYN _ _ _ _)⟩

theorem shr (x y : Reg) : Statement (.shr x y) :=
  ⟨by simp only [Instr.row]; decide, names_of_group_n 0x8 0x6 rfl (fieldGroup_wordXYN _ _ _ _) (fieldN_wordXYN _ _ _ _)⟩

theorem subnReg (x y : Reg) : Statement (.subnReg x y) :=
  ⟨by simp only [Instr.row]; decide, names_of_group_n 0x8 0x7 rfl (fieldGroup_wordXYN _ _ _ _) (fieldN_wordXYN _ _ _ _)⟩

theorem shl (x y : Reg) : Statement (.shl x y) :=
  ⟨by simp only [Instr.row]; decide, names_of_group_n 0x8 0xe rfl (fieldGroup_wordXYN _ _ _ _) (fieldN_wordXYN _ _ _ _)⟩

theorem ldI (nnn : Addr) : Statement (.ldI nnn) :=
  ⟨by simp only [Instr.row]; decide, names_of_group 0xa rfl (fieldGroup_wordNNN _ _)⟩

theorem jpV0 (nnn : Addr) : Statement (.jpV0 nnn) :=
  ⟨by simp only [Instr.row]; decide, names_of_group 0xb rfl (fieldGroup_wordNNN _ _)⟩

theorem rnd (x : Reg) (nn : Byte) : Statement (.rnd x nn) :=
  ⟨by simp only [Instr.row]; decide, names_of_group 0xc rfl (fieldGroup_wordXNN _ _ _)⟩

theorem drw (x y : Reg) (n : Nibble) : Statement (.drw x y n) :=
  ⟨by simp only [Instr.row]; decide, names_of_group 0xd rfl (fieldGroup_wordXYN _ _ _ _)⟩

theorem skp (x : Reg) : Statement (.skp x) :=
  ⟨by simp only [Instr.row]; decide, names_of_group_nn 0xe 0x9e rfl (fieldGroup_wordXNN _ _ _) (fieldNN_wordXNN _ _ _)⟩

theorem sknp (x : Reg) : Statement (.sknp x) :=
  ⟨by simp only [Instr.row]; decide, names_of_group_nn 0xe 0xa1 rfl (fieldGroup_wordXNN _ _ _) (fieldNN_wordXNN _ _ _)⟩

theorem ldFromDt (x : Reg) : Statement (.ldFromDt x) :=
  ⟨by simp only [Instr.row]; decide, names_of_group_nn 0xf 0x7 rfl (fieldGroup_wordXNN _ _ _) (fieldNN_wordXNN _ _ _)⟩

theorem ldToDt (x : Reg) : Statement (.ldToDt x) :=
  ⟨by simp only [Instr.row]; decide, names_of_group_nn 0xf 0x15 rfl (fieldGroup_wordXNN _ _ _) (fieldNN_wordXNN _ _ _)⟩

theorem ldToSt (x : Reg) : Statement (.ldToSt x) :=
  ⟨by simp only [Instr.row]; decide, names_of_group_nn 0xf 0x18 rfl (fieldGroup_wordXNN _ _ _) (fieldNN_wordXNN _ _ _)⟩

theorem ldKey (x : Reg) : Statement (.ldKey x) :=
  ⟨by simp only [Instr.row]; decide, names_of_group_nn 0xf 0xa rfl (fieldGroup_wordXNN _ _ _) (fieldNN_wordXNN _ _ _)⟩

theorem addI (x : Reg) : Statement (.addI x) :=
  ⟨by simp only [Instr.row]; decide, names_of_group_nn 0xf 0x1e rfl (fieldGroup_wordXNN _ _ _) (fieldNN_wordXNN _ _ _)⟩

theorem ldFont (x : Reg) : Statement (.ldFont x) :=
  ⟨by simp only [Instr.row]; decide, names_of_group_nn 0xf 0x29 rfl (fieldGroup_wordXNN _ _ _) (fieldNN_wordXNN _ _ _)⟩

theorem ldBcd (x : Reg) : Statement (.ldBcd x) :=
  ⟨by simp only [Instr.row]; decide, names_of_group_nn 0xf 0x33 rfl (fieldGroup_wordXNN _ _ _) (fieldNN_wordXNN _ _ _)⟩

theorem storeRegs (x : Reg) : Statement (.storeRegs x) :=
  ⟨by simp only [Instr.row]; decide, names_of_group_nn 0xf 0x55 rfl (fieldGroup_wordXNN _ _ _) (fieldNN_wordXNN _ _ _)⟩

theorem loadRegs (x : Reg) : Statement (.loadRegs x) :=
  ⟨by simp only [Instr.row]; decide, names_of_group_nn 0xf 0x65 rfl (fieldGroup_wordXNN _ _ _) (fieldNN_wordXNN _ _ _)⟩

end EncodesRow

end Sys2Proof.Laws
end

