-- ==== Sys2Proof/Tests/Slice0.lean ====
section
/-! SUPPORT. Small tests of the model against the vectors of 95_test_vectors.md and words written out from
30_encoding.md R83 and R87, and a witness for every obligation that has hypotheses. -/

namespace Sys2Proof.Tests

open Sys2Proof Sys2Proof.Machine

/-! ### Helpers -/

/-- The next state of an answer. -/
def nextOf : Result → Option State
  | .next t => some t
  | .fault _ => none
  | .refused _ => none

/-- Reset state with the given registers. -/
def withRegs (l : List (Reg × Byte)) : State := l.foldl (fun s c => s.setReg c.1 c.2) State.reset

/-- One Step of the word w placed at pc. -/
def ran (w : Word) (s : State) : Option State := nextOf (step (s.withFetchWord 16 w.toNat))

/-- One field of the state after that Step. -/
def after {α : Type} (w : Word) (s : State) (f : State → α) : Option α := (ran w s).map f

/-- VF and V[x] after a Step. -/
def vxAndFlag (x : Reg) (t : State) : Byte × Byte := (t.reg x, t.reg vF)

/-- Pix(x, y) and VF after a Step. -/
def pixelAndFlag (x : Fin 64) (y : Fin 32) (t : State) : Bool × Byte := (Grid.pixel t.display x y, t.reg vF)

/-! ### Well-formedness: an ill-formed word for each group that has one (R88 to R90, vectors 2.1) -/

theorem test_wf_refuses_group0 : wordWellFormed 0x01E0 = false ∧ wordWellFormed 0x00E1 = false := by decide
theorem test_wf_refuses_group5 : wordWellFormed 0x5121 = false := by decide
theorem test_wf_refuses_group8 : wordWellFormed 0x8008 = false ∧ wordWellFormed 0x800F = false := by decide
theorem test_wf_refuses_group9 : wordWellFormed 0x900E = false := by decide
theorem test_wf_refuses_groupE : wordWellFormed 0xE09F = false ∧ wordWellFormed 0xE1A2 = false := by decide
theorem test_wf_refuses_groupF : wordWellFormed 0xF000 = false ∧ wordWellFormed 0xFF56 = false := by decide
theorem test_wf_accepts : wordWellFormed 0x00E0 = true ∧ wordWellFormed 0xD12F = true ∧ wordWellFormed 0xFF65 = true := by
  decide
theorem test_table_has_34_rows : opcodeTable.length = 34 := by decide

/-! ### Decoding: each constructor's word, bit by bit (R83, R87): group, x or the address, y, n -/

theorem test_decode_cls : decodeWord 0b0000000011100000 = some .cls := by decide
theorem test_decode_ret : decodeWord 0b0000000011101110 = some .ret := by decide
theorem test_decode_jp : decodeWord 0b0001001000110100 = some (.jp 0x234) := by decide
theorem test_decode_call : decodeWord 0b0010100000000001 = some (.call 0x801) := by decide
theorem test_decode_seByte : decodeWord 0b0011000100101010 = some (.seByte 1 0x2A) := by decide
theorem test_decode_sneByte : decodeWord 0b0100100011010101 = some (.sneByte 8 0xD5) := by decide
theorem test_decode_seReg : decodeWord 0b0101000100100000 = some (.seReg 1 2) := by decide
theorem test_decode_sneReg : decodeWord 0b1001100001000000 = some (.sneReg 8 4) := by decide
theorem test_decode_ldByte : decodeWord 0b0110101000101111 = some (.ldByte 0xA 0x2F) := by decide
theorem test_decode_addByte : decodeWord 0b0111111100000101 = some (.addByte 0xF 0x05) := by decide
theorem test_decode_ldReg : decodeWord 0b1000000100100000 = some (.ldReg 1 2) := by decide
theorem test_decode_orReg : decodeWord 0b1000001101000001 = some (.orReg 3 4) := by decide
theorem test_decode_andReg : decodeWord 0b1000010101100010 = some (.andReg 5 6) := by decide
theorem test_decode_xorReg : decodeWord 0b1000011110000011 = some (.xorReg 7 8) := by decide
theorem test_decode_addReg : decodeWord 0b1000100110100100 = some (.addReg 9 0xA) := by decide
theorem test_decode_subReg : decodeWord 0b1000101111000101 = some (.subReg 0xB 0xC) := by decide
theorem test_decode_shr : decodeWord 0b1000110111100110 = some (.shr 0xD 0xE) := by decide
theorem test_decode_subnReg : decodeWord 0b1000111100000111 = some (.subnReg 0xF 0) := by decide
theorem test_decode_shl : decodeWord 0b1000001000011110 = some (.shl 2 1) := by decide
theorem test_decode_ldI : decodeWord 0b1010010000000010 = some (.ldI 0x402) := by decide
theorem test_decode_jpV0 : decodeWord 0b1011111111111110 = some (.jpV0 0xFFE) := by decide
theorem test_decode_rnd : decodeWord 0b1100001100001111 = some (.rnd 3 0x0F) := by decide
theorem test_decode_drw : decodeWord 0b1101000100101111 = some (.drw 1 2 0xF) := by decide
theorem test_decode_skp : decodeWord 0b1110000110011110 = some (.skp 1) := by decide
theorem test_decode_sknp : decodeWord 0b1110001010100001 = some (.sknp 2) := by decide
theorem test_decode_ldFromDt : decodeWord 0b1111001100000111 = some (.ldFromDt 3) := by decide
theorem test_decode_ldKey : decodeWord 0b1111010000001010 = some (.ldKey 4) := by decide
theorem test_decode_ldToDt : decodeWord 0b1111010100010101 = some (.ldToDt 5) := by decide
theorem test_decode_ldToSt : decodeWord 0b1111011000011000 = some (.ldToSt 6) := by decide
theorem test_decode_addI : decodeWord 0b1111011100011110 = some (.addI 7) := by decide
theorem test_decode_ldFont : decodeWord 0b1111100000101001 = some (.ldFont 8) := by decide
theorem test_decode_ldBcd : decodeWord 0b1111100100110011 = some (.ldBcd 9) := by decide
theorem test_decode_storeRegs : decodeWord 0b1111101001010101 = some (.storeRegs 0xA) := by decide
theorem test_decode_loadRegs : decodeWord 0b1111111101100101 = some (.loadRegs 0xF) := by decide

/-- The word is big-endian in memory (R64), and the rest of the bytes is handed back. -/
theorem test_decode_bytes : decode [0x6A, 0x2F, 0x99] = .ok (.ldByte 0xA 0x2F, [0x99]) := by rfl
/-- One byte is no word (R80). -/
theorem test_decode_refuses_truncated : decode [0x6A] = .error .truncated := by rfl
/-- 5XY1 is invalid (R90). -/
theorem test_decode_refuses_invalid : decode [0x51, 0x21] = .error (.invalidInstruction 0x5121) := by rfl
theorem test_decodeTableWord : decodeTableWord 16 0xD12F = some (.drw 1 2 0xF) ∧ decodeTableWord 16 0x0000 = none := by
  decide

/-! ### One Step of each instruction (vector names in brackets) -/

/-- [W4] Pix(10, 5) set: cleared, dirty set. -/
theorem test_cls_clears :
    after 0x00E0 ((State.reset.setDisplay (Grid.flip blankGrid 10 5)).setDirty false)
      (fun t => (Grid.pixel t.display 10 5, t.dirty)) = some (false, true) := by decide
/-- [D12] A clear display is no change. -/
theorem test_cls_keeps_dirty : after 0x00E0 (State.reset.setDirty false) (·.dirty) = some false := by decide
/-- [F1] -/
theorem test_ret_pops :
    after 0x00EE (((State.reset.setPc 0x0212).setSp 1).setStack (State.reset.stack.set 0 0x0206))
      (fun t => (t.pc, t.sp, t.stack[0])) = some (0x0206, 0, 0x0206) := by decide
/-- [F2] -/
theorem test_ret_underflows :
    after 0x00EE (State.reset.setPc 0x0300) (fun t => (t.fault, t.pc, t.events)) =
      some (some ⟨.stackUnderflow, 0x00EE, 0x0300⟩, 0x0300, [.faultReport .stackUnderflow 0x00EE 0x0300]) := by decide
/-- [F8] An odd target is legal. -/
theorem test_jp : after 0x1301 State.reset (·.pc) = some 0x0301 := by decide
/-- [F6] pc wraps mod 65536 before it is pushed. -/
theorem test_call_pushes :
    after 0x2200 (State.reset.setPc 0xFFFE) (fun t => (t.stack[0], t.sp, t.pc)) = some (0x0000, 1, 0x0200) := by decide
/-- [F4] -/
theorem test_call_overflows :
    after 0x2500 ((State.reset.setPc 0x0400).setSp 16) (fun t => (t.fault, t.sp, t.pc)) =
      some (some ⟨.stackOverflow, 0x2500, 0x0400⟩, 16, 0x0400) := by decide
/-- [F11] -/
theorem test_seByte_equal : after 0x332A (withRegs [(3, 0x2A)]) (·.pc) = some 0x0204 := by decide
/-- [F20] The skip wraps. -/
theorem test_seByte_wraps : after 0x3000 (State.reset.setPc 0xFFFE) (·.pc) = some 0x0002 := by decide
/-- [F13] -/
theorem test_sneByte_equal : after 0x432A (withRegs [(3, 0x2A)]) (·.pc) = some 0x0202 := by decide
/-- [F14] -/
theorem test_sneByte_differs : after 0x432A (withRegs [(3, 0x2B)]) (·.pc) = some 0x0204 := by decide
/-- [F15] -/
theorem test_seReg_equal : after 0x5120 (withRegs [(1, 0x10), (2, 0x10)]) (·.pc) = some 0x0204 := by decide
/-- [F17] -/
theorem test_sneReg_differs : after 0x9120 (withRegs [(1, 0x10), (2, 0x11)]) (·.pc) = some 0x0204 := by decide
/-- [F18] x = y. -/
theorem test_sneReg_same : after 0x9110 State.reset (·.pc) = some 0x0202 := by decide
/-- [W1] 6F00 with VF = 1. -/
theorem test_ldByte_vF : after 0x6F00 (withRegs [(15, 1)]) (fun t => (t.reg 15, t.pc)) = some (0x00, 0x0202) := by decide
/-- [A1] No carry flag. -/
theorem test_addByte_wraps : after 0x7101 (withRegs [(1, 0xFF), (15, 0x55)]) (vxAndFlag 1) = some (0x00, 0x55) := by
  decide
/-- [A2] -/
theorem test_addByte_vF : after 0x7F05 (withRegs [(15, 0x10)]) (·.reg 15) = some 0x15 := by decide
/-- [A3] -/
theorem test_ldReg : after 0x8120 (withRegs [(2, 0x11)]) (·.reg 1) = some 0x11 := by decide
/-- [A4] -/
theorem test_orReg : after 0x8121 (withRegs [(1, 0x0F), (2, 0xF0), (15, 0x77)]) (vxAndFlag 1) = some (0xFF, 0x77) := by
  decide
/-- [A5] -/
theorem test_andReg : after 0x8122 (withRegs [(1, 0x3C), (2, 0x0F), (15, 0x77)]) (vxAndFlag 1) = some (0x0C, 0x77) := by
  decide
/-- [A6] -/
theorem test_xorReg : after 0x8123 (withRegs [(1, 0x3C), (2, 0x0F)]) (·.reg 1) = some 0x33 := by decide
/-- [W2] -/
theorem test_addReg_carries : after 0x8124 (withRegs [(1, 0xFF), (2, 0x01)]) (vxAndFlag 1) = some (0x00, 1) := by decide
/-- [A9] y = F: the old VF is the addend. -/
theorem test_addReg_reads_old_vF : after 0x82F4 (withRegs [(15, 0x01), (2, 0xFF)]) (vxAndFlag 2) = some (0x00, 1) := by
  decide
/-- [W3] -/
theorem test_subReg_borrows : after 0x8125 (withRegs [(1, 0x05), (2, 0x07)]) (vxAndFlag 1) = some (0xFE, 0) := by decide
/-- [A10] x = F: the flag is written last. -/
theorem test_subReg_vF : after 0x8F15 (withRegs [(15, 0x10), (1, 0x20)]) (·.reg 15) = some 0 := by decide
/-- [A13] V2 is not read. -/
theorem test_shr_ignores_vy : after 0x8126 (withRegs [(1, 0x04), (2, 0xFF)]) (vxAndFlag 1) = some (0x02, 0) := by decide
/-- [A14] -/
theorem test_shr_vF : after 0x8F06 (withRegs [(15, 0x03)]) (·.reg 15) = some 1 := by decide
/-- [A15] -/
theorem test_subnReg_borrows : after 0x8127 (withRegs [(1, 0x07), (2, 0x05)]) (vxAndFlag 1) = some (0xFE, 0) := by decide
/-- [A16] -/
theorem test_subnReg : after 0x8127 (withRegs [(1, 0x05), (2, 0x07)]) (vxAndFlag 1) = some (0x02, 1) := by decide
/-- [A17] -/
theorem test_shl : after 0x810E (withRegs [(1, 0x81)]) (vxAndFlag 1) = some (0x02, 1) := by decide
/-- [A19] -/
theorem test_shl_vF : after 0x8F0E (withRegs [(15, 0x80)]) (·.reg 15) = some 1 := by decide
/-- [I1] -/
theorem test_ldI : after 0xA300 State.reset (·.i) = some 0x0300 := by decide
/-- [F10] The target is not reduced. -/
theorem test_jpV0 : after 0xBFFF (withRegs [(0, 0xFF)]) (·.pc) = some 0x10FE := by decide
/-- [W7] Whatever the draw. -/
theorem test_rnd_zero (s : State) : (nextOf (exec (.rnd 3 0x00) s)).map (·.reg 3) = some 0x00 := by
  simp [exec, execRnd, nextOf, State.drawRandom, State.setDraws, State.setReg, State.reg]
/-- [D4] Clipped at the right edge. -/
theorem test_drw_clips :
    after 0xD011 (((withRegs [(0, 62)]).memWrite 0x300 0xFF).setI 0x300)
      (fun t => (Grid.pixel t.display 63 0, Grid.pixel t.display 0 0, t.reg vF)) = some (true, false, 0) := by decide
/-- [D10] Bit 0 is column 7; a lit pixel is erased and collides. -/
theorem test_drw_collides :
    after 0xD011 ((((withRegs [(0, 56)]).memWrite 0x300 0x01).setI 0x300).setDisplay (Grid.flip blankGrid 63 0))
      (pixelAndFlag 63 0) = some (false, 1) := by decide
/-- [K1] -/
theorem test_skp_pressed : after 0xE29E (keyDown 5 (withRegs [(2, 5)])) (·.pc) = some 0x0204 := by decide
/-- [K3] for one key: 0x15 is no key though its low nibble is pressed. -/
theorem test_skp_full_value : after 0xE29E (keyDown 5 (withRegs [(2, 0x15)])) (·.pc) = some 0x0202 := by decide
/-- [K5] -/
theorem test_sknp_pressed : after 0xE2A1 (keyDown 5 (withRegs [(2, 5)])) (·.pc) = some 0x0202 := by decide
/-- [K6] -/
theorem test_sknp_out_of_range : after 0xE2A1 (withRegs [(2, 0x20)]) (·.pc) = some 0x0204 := by decide
/-- [K11] -/
theorem test_ldFromDt : after 0xF307 (State.reset.setDt 0x3C) (fun t => (t.reg 3, t.dt)) = some (0x3C, 0x3C) := by decide
/-- [K12] -/
theorem test_ldToDt : after 0xF315 (withRegs [(3, 0x3C)]) (·.dt) = some 0x3C := by decide
/-- [K13] -/
theorem test_ldToSt : after 0xF318 (withRegs [(3, 0x06)]) (fun t => (t.st, t.events)) = some (0x06, []) := by decide
/-- [K10] Parked at pc_f = 0. -/
theorem test_ldKey_parks : after 0xF30A (State.reset.setPc 0) (fun t => (t.pc, t.reg 3)) = some (0x0000, 0) := by decide
/-- [K8] -/
theorem test_ldKey_lowest :
    after 0xF30A (keyDown 7 (keyDown 3 State.reset)) (fun t => (t.reg 3, t.pc, t.keys[3], t.keys[7])) =
      some (3, 0x0202, true, true) := by decide
/-- [I5] I keeps 16 bits. -/
theorem test_addI_wraps : after 0xF01E ((withRegs [(0, 0x02)]).setI 0xFFFF) (fun t => (t.i, t.reg vF)) =
    some (0x0001, 1) := by decide
/-- [I6] x = F: the flag is written last. -/
theorem test_addI_vF : after 0xFF1E ((withRegs [(15, 0x05)]).setI 0x0100) (fun t => (t.i, t.reg vF)) =
    some (0x0105, 0) := by decide
/-- [I8] The whole byte is multiplied. -/
theorem test_ldFont : after 0xF329 (withRegs [(3, 0xFF)]) (·.i) = some 0x04FB := by decide
/-- [W9] -/
theorem test_ldBcd : after 0xF533 ((withRegs [(5, 0xEA)]).setI 0x0300)
    (fun t => (t.memRead 0x300, t.memRead 0x301, t.memRead 0x302)) = some (0x02, 0x03, 0x04) := by decide
/-- [I13] Masked past 0xFFF, I kept. -/
theorem test_ldBcd_masks : after 0xF033 ((withRegs [(0, 123)]).setI 0x0FFE)
    (fun t => (t.memRead 0xFFF, t.memRead 0x000, t.i)) = some (0x02, 0x03, 0x0FFE) := by decide
/-- [I14] The range ends with V2 and I is kept. -/
theorem test_storeRegs : after 0xF255 ((withRegs [(0, 1), (1, 2), (2, 3), (3, 4)]).setI 0x0300)
    (fun t => (t.memRead 0x300, t.memRead 0x302, t.memRead 0x303, t.i)) = some (0x01, 0x03, 0x00, 0x0300) := by decide
/-- [I16] -/
theorem test_storeRegs_masks : after 0xF155 ((withRegs [(0, 0x11), (1, 0x22)]).setI 0x0FFF)
    (fun t => (t.memRead 0xFFF, t.memRead 0x000)) = some (0x11, 0x22) := by decide
/-- [I17] -/
theorem test_loadRegs : after 0xF265 ((((State.reset.memWrite 0x300 2).memWrite 0x301 3).memWrite 0x302 4).setI 0x0300)
    (fun t => (t.reg 0, t.reg 1, t.reg 2, t.i)) = some (2, 3, 4, 0x0300) := by decide
/-- [I19] The font byte through the mask. -/
theorem test_loadRegs_masks : after 0xF065 (State.reset.setI 0x100F) (·.reg 0) = some 0xF0 := by decide

/-! ### The sequencer (vectors 2.2) -/

/-- [S1] Nothing loaded: 0x0000 is invalid. -/
theorem test_first_step_from_reset : (nextOf (step State.reset)).map (fun t => (t.fault, t.pc, t.events)) =
    some (some ⟨.invalidInstruction, 0x0000, 0x0200⟩, 0x0200, [.faultReport .invalidInstruction 0x0000 0x0200]) := by
  decide
/-- [S2] A fetch across the end of memory. -/
theorem test_fetch_wraps :
    (nextOf (step (((State.reset.setPc 0x0FFF).memWrite 0xFFF 0x12).memWrite 0x000 0x34))).map (·.pc) = some 0x0234 := by
  decide
/-- [S4] A fetch above 0xFFF is masked, pc is not. -/
theorem test_fetch_masks : (nextOf (step (((State.reset.setPc 0x1200).memWrite 0x200 0x60).memWrite 0x201 0x01))).map
    (fun t => (t.reg 0, t.pc)) = some (0x01, 0x1202) := by decide
/-- [S6] pc wraps mod 65536. -/
theorem test_pc_wraps : after 0x6107 (State.reset.setPc 0xFFFE) (fun t => (t.reg 1, t.pc)) = some (0x07, 0x0000) := by
  decide

/-! ### Host operations (vectors 2.8) -/

/-- [T6] -/
theorem test_tick_all_parts : tick ((State.reset.setDt 5).setSt 5) =
    { State.reset with dt := 4, st := 0, dirty := false, events := [.tone 5, .redraw blankGrid] } := by decide
/-- [T7] -/
theorem test_tick_paused : tick ((State.reset.setDt 5).setPaused true) = (State.reset.setDt 5).setPaused true := by decide
/-- [T8] Not gated by fault. -/
theorem test_tick_halted : (tick ((State.reset.setDt 5).setFault (some ⟨.stackOverflow, 0x2200, 0x0200⟩))).dt = 4 := by
  decide
/-- [T3] The duration of six counts. -/
theorem test_tone_100ms : toneMilliseconds 6 = 100 := by
  show ((6 : ℕ) : ℚ) * 1000 / 60 = 100
  norm_num
/-- [T9], [T10] -/
theorem test_keyDown_bounds : keyDown 16 State.reset = State.reset ∧ (keyDown 15 State.reset).keys[15] = true := by decide
/-- [T13] -/
theorem test_keyUp : keyUp 3 (keyDown 3 State.reset) = State.reset := by decide
/-- [T15] -/
theorem test_reset_keeps_paused :
    hostReset (((withRegs [(1, 7)]).setPaused true).setFault (some ⟨.stackOverflow, 0x2200, 0x0200⟩)) =
      State.reset.setPaused true := by decide
/-- [T18] -/
theorem test_bulkLoad_too_long : bulkLoadReply 0xFFF [0xAB, 0xCD] = .loadError ∧
    bulkLoad 0xFFF [0xAB, 0xCD] State.reset = State.reset := by decide
/-- [T19] -/
theorem test_bulkLoad_fits : bulkLoadReply 0xFFE [0xAB, 0xCD] = .ok ∧
    (bulkLoad 0xFFE [0xAB, 0xCD] State.reset).memRead 0xFFF = 0xCD := by decide
/-- [T20], and the model's choice for no bytes past the end (log 24). -/
theorem test_bulkLoad_empty : bulkLoadReply 0x000 [] = .ok ∧ bulkLoadReply 4096 [] = .ok ∧
    bulkLoadReply 4097 [] = .loadError ∧ bulkLoad 4097 [] State.reset = State.reset := by decide
/-- [T21] A load does not resume a halted CORE. -/
theorem test_loadRom_halted :
    let s := loadRom [0x12, 0x00] (State.reset.setFault (some ⟨.stackOverflow, 0x2200, 0x0200⟩))
    s.memRead 0x200 = 0x12 ∧ nextOf (step s) = some s := by decide
/-- [T22] Reset, LoadRom(12 00), Step. -/
theorem test_load_and_run : (nextOf (performAll [.reset, .loadRom [0x12, 0x00], .step] State.reset)).map
    (fun t => (t.fault, t.pc)) = some (none, 0x0200) := by decide
/-- Writing the reset byte back leaves no cell: equal memories are equal lists (R66, log 19). -/
theorem test_write_canonical : ((State.reset.memWrite 0x000 0x12).memWrite 0x1000 0xF0).mem = [] := by decide

/-- R66: default glyph 0 first row, glyph 7 first and last, glyph B first, glyph F last. -/
theorem test_default_font : State.reset.memRead 0x000 = 0xF0 ∧ State.reset.memRead 0x023 = 0xF0 ∧
    State.reset.memRead 0x027 = 0x40 ∧ State.reset.memRead 0x037 = 0xE0 ∧ State.reset.memRead 0x04F = 0x80 := by decide
/-- R5, R66: with another FONT memory holds its bytes after Reset, and DRW draws them. -/
theorem test_font_is_a_parameter :
    after 0xD011 (State.construct (Vector.replicate 80 0x01) 0) (fun t => (t.memRead 0x000, Grid.pixel t.display 7 0)) =
      some (0x01, true) := by decide

/-! ### Witnesses: the hypotheses of each obligation are met -/

/-- Reset state with CALL 0x300 at 0x200 and RET at 0x300 [W5]. -/
def callRet : State := State.reset.storeBytes 0x300 [0x00, 0xEE] |>.withFetchWord 16 0x2300

/-- A running state with the word w at pc. -/
def withWord (w : Word) : State := State.reset.withFetchWord 16 w.toNat

/-- A halted CORE: the reset state after its first Step [S1]. -/
def halted : State :=
  { State.reset with
    fault := some ⟨.invalidInstruction, 0x0000, 0x0200⟩
    events := [.faultReport .invalidInstruction 0x0000 0x0200] }

theorem witness_AddRegSetsCarryLast : (14 : Reg) ≠ vF ∧ (0 : Reg) ≠ vF := by decide
theorem witness_SubtractionsSetNoBorrowLast : (14 : Reg) ≠ vF ∧ (0 : Reg) ≠ vF := by decide
theorem witness_ShiftsMoveVxAndIgnoreVy : (14 : Reg) ≠ vF ∧ (0 : Reg) ≠ vF := by decide
theorem witness_RndMasksAFreeDraw_bit : (0x7F : Byte).getLsbD 7 = false ∧ (0xFE : Byte).getLsbD 0 = false := by decide
theorem witness_RndMasksAFreeDraw_zero : (0x00 : Byte) = 0 := by decide
theorem witness_SkipOnRegisters_nibbles : (1 : Nibble) ≠ 0 ∧ (15 : Nibble) ≠ 0 := by decide
theorem witness_CallPushesReturnAddress_first : State.reset.sp.val < 16 := by decide
theorem witness_CallPushesReturnAddress_last : (State.reset.setSp 15).sp.val < 16 ∧ 14 ≠ (State.reset.setSp 15).sp.val := by
  decide
theorem witness_CallOnFullStackFaults : (State.reset.setSp 16).sp = 16 := by decide
theorem witness_RetPopsReturnAddress_one : 0 < (State.reset.setSp 1).sp.val := by decide
theorem witness_RetPopsReturnAddress_full : 0 < (State.reset.setSp 16).sp.val := by decide
theorem witness_RetOnEmptyStackFaults : State.reset.sp = 0 := by decide
theorem witness_CallThenRetReturnsBehindCall :
    callRet.Running ∧ callRet.sp.val < 16 ∧ decodeWord callRet.fetchWord = some (.call 0x300) ∧
      (nextOf (step callRet)).map (·.fetchWord) = some 0x00EE :=
  ⟨⟨rfl, rfl⟩, by decide, by decide, by decide⟩
theorem witness_CallThenRetReturnsBehindCall_last :
    (callRet.setSp 15).Running ∧ (callRet.setSp 15).sp.val < 16 ∧
      decodeWord (callRet.setSp 15).fetchWord = some (.call 0x300) ∧
      (nextOf (step (callRet.setSp 15))).map (·.fetchWord) = some 0x00EE :=
  ⟨⟨rfl, rfl⟩, by decide, by decide, by decide⟩
theorem witness_StoreRegsCopiesRange : (15 : Reg) ≤ 15 ∧ (0 : Reg) ≤ 15 ∧ (0 : Reg) ≤ 0 := by decide
theorem witness_LoadRegsCopiesRange : (15 : Reg) ≤ 15 ∧ (0 : Reg) ≤ 15 ∧ (0 : Reg) ≤ 0 := by decide
theorem witness_StoreThenLoadRestoresRegisters :
    ∃ t u : State, exec (.storeRegs 2) ((withRegs [(0, 1), (2, 3)]).setI 0x0FFF) = .next t ∧
      u = t.setReg 0 0 ∧ (∀ a, u.memRead a = t.memRead a) ∧ u.i = t.i ∧ (2 : Reg) ≤ 2 :=
  ⟨_, _, rfl, rfl, fun _ => rfl, rfl, by decide⟩
theorem witness_DrwTwiceRestoresDisplay : (0 : Reg) ≠ vF ∧ (1 : Reg) ≠ vF ∧ (14 : Reg) ≠ vF := by decide
theorem witness_LdKeyTakesLowest :
    (keyDown 7 (keyDown 3 State.reset)).keys[(3 : Key)] = true ∧
      ∀ j : Key, j < 3 → (keyDown 7 (keyDown 3 State.reset)).keys[j] = false := by decide
theorem witness_LdKeyTakesLowest_last :
    (keyDown 15 State.reset).keys[(15 : Key)] = true ∧
      ∀ j : Key, j < 15 → (keyDown 15 State.reset).keys[j] = false := by decide
theorem witness_LdKeyParks : ∀ k : Key, State.reset.keys[k] = false := by decide
theorem witness_ParkedStepChangesNothing :
    (withWord 0xF40A).Running ∧ decodeWord (withWord 0xF40A).fetchWord = some (.ldKey 4) ∧
      ∀ k : Key, (withWord 0xF40A).keys[k] = false :=
  ⟨⟨rfl, rfl⟩, by decide, by decide⟩
theorem witness_EncodeInvertsDecode : decodeWord 0x8FFE = some (.shl 15 15) := by decide
theorem witness_InvalidWordsNameNoRow : decodeWord 0x5121 = none ∧ decodeWord 0x5120 ≠ none := by decide
theorem witness_DispatchSelectsTheOneRow : decodeWord 0xFF65 = some (.loadRegs 15) ∧
    (⟨0xF065, 0xF0FF, "LD_Vx___I"⟩ : OpRow) ∈ opcodeTable ∧ (0xFF65 : Word) &&& 0xF0FF = 0xF065 := by decide
theorem witness_StepRunsDecodedInstruction :
    (withWord 0x1234).Running ∧ decodeWord (withWord 0x1234).fetchWord = some (.jp 0x234) :=
  ⟨⟨rfl, rfl⟩, by decide⟩
theorem witness_InvalidWordFaults : State.reset.Running ∧ decodeWord State.reset.fetchWord = none :=
  ⟨⟨rfl, rfl⟩, by decide⟩
theorem witness_FaultingStepCommitsNothing_invalid :
    State.reset.Running ∧ ∃ t, step State.reset = .next t ∧ t.fault = some ⟨.invalidInstruction, 0x0000, 0x0200⟩ :=
  ⟨⟨rfl, rfl⟩, halted, rfl, rfl⟩
theorem witness_FaultingStepCommitsNothing_overflow :
    ((withWord 0x2200).setSp 16).Running ∧
      (nextOf (step ((withWord 0x2200).setSp 16))).map (·.fault) = some (some ⟨.stackOverflow, 0x2200, 0x0200⟩) :=
  ⟨⟨rfl, rfl⟩, by decide⟩
theorem witness_FaultingStepCommitsNothing_underflow :
    (withWord 0x00EE).Running ∧
      (nextOf (step (withWord 0x00EE))).map (·.fault) = some (some ⟨.stackUnderflow, 0x00EE, 0x0200⟩) :=
  ⟨⟨rfl, rfl⟩, by decide⟩
theorem witness_PausedOrHaltedStepHasNoEffect_paused : (State.reset.setPaused true).paused = true := by decide
theorem witness_PausedOrHaltedStepHasNoEffect_halted : halted.fault ≠ none := by decide
theorem witness_PcAfterStepFollowsTable :
    (withWord 0x3000).Running ∧ decodeWord (withWord 0x3000).fetchWord = some (.seByte 0 0x00) ∧
      (nextOf (step (withWord 0x3000))).map (·.pc) = some 0x0204 :=
  ⟨⟨rfl, rfl⟩, by decide, by decide⟩
theorem witness_StepEmitsAtMostAFaultReport : step State.reset = .next halted ∧ step halted = .next halted :=
  ⟨rfl, rfl⟩
theorem witness_FrameOfEveryInstruction : ∃ t, exec (.ldByte 1 0x07) State.reset = .next t := ⟨_, rfl⟩
theorem halted_inv : halted.Inv where
  memory := by decide
  record := by
    intro r hr
    cases hr
    decide
  tones := by
    intro n hn
    simp [halted] at hn
theorem witness_StepKeepsInv : halted.Inv ∧ ∃ t, step halted = .next t := ⟨halted_inv, _, rfl⟩
theorem witness_HostOperationsKeepInv : halted.Inv ∧ (∃ t, perform .tick halted = .next t) ∧
    ∃ t, performAll [.loadRom [0x12, 0x00], .step, .tick] State.reset = .next t :=
  ⟨halted_inv, ⟨_, rfl⟩, _, rfl⟩
theorem witness_FaultClearedOnlyByReset : HostOp.resume ≠ .reset ∧
    halted.fault = some ⟨.invalidInstruction, 0x0000, 0x0200⟩ ∧ ∃ t, perform .resume halted = .next t :=
  ⟨by decide, rfl, _, rfl⟩
theorem witness_ReadAfterWriteInMaskedMemory : 8191 % 4096 = 4095 % 4096 ∧ ¬ 4096 % 4096 = 4095 % 4096 ∧
    State.reset.mem.wf State.reset.font = true := by decide
theorem witness_ResetStateHasSpecValues : 79 < 80 ∧ State.reset.memRead 79 = 0x80 ∧ (80 ≤ 80 ∧ 80 < 4096) ∧
    State.reset.memRead 80 = 0 ∧ State.reset.memRead 4095 = 0 := by decide
/-- Another FONT than the default: the parameter is free (R5). -/
def otherFont : Font := Vector.replicate 80 0x81

theorem witness_HostResetRestoresAllButPaused :
    (hostReset ((State.construct otherFont 7).memWrite 79 0x00)).memRead 79 = 0x81 ∧
      (hostReset ((State.construct otherFont 7).memWrite 80 0x01)).memRead 80 = 0x00 := by decide
theorem witness_FontStaysTheParameter : (∃ t, perform .reset (State.construct otherFont 7) = .next t) ∧
    ∃ t, performAll [.loadRom [0x12, 0x00], .step, .reset] (State.construct otherFont 7) = .next t :=
  ⟨⟨_, rfl⟩, _, rfl⟩
/-- A Step of RND, which takes a draw, and a Reset, which takes none, in a machine that owns generator 7 (R252). -/
theorem witness_MachineKeepsItsOwnGenerator :
    ∃ t u : State, perform .step ((State.construct otherFont 7).withFetchWord 16 0xC300) = .next t ∧ t.draws = 1 ∧
      perform .reset t = .next u ∧ u.draws = 1 ∧
      ∃ w, performAll [.loadRom [0xC3, 0x00], .step, .reset] (State.construct otherFont 7) = .next w :=
  ⟨_, _, rfl, rfl, rfl, rfl, _, rfl⟩
theorem witness_TickRunsItsThreeParts : (State.reset.setPaused true).paused = true ∧ State.reset.paused = false := by decide
theorem witness_PauseAndResumeGateTheClocks : (pause State.reset).paused = true := by decide
theorem witness_KeysFollowTheHost : (16 ≤ 16) ∧ (15 : Key).val = 15 := by decide
theorem witness_BulkLoadCopiesAllOrNothing_error : 0xFFF + [(0xAB : Byte), 0xCD].length > 4096 := by decide
theorem witness_BulkLoadCopiesAllOrNothing_empty : 4097 + ([] : List Byte).length > 4096 ∧
    4096 + ([] : List Byte).length ≤ 4096 := by decide
theorem witness_BulkLoadCopiesAllOrNothing_fits : 0xFFE + [(0xAB : Byte), 0xCD].length ≤ 4096 ∧
    1 < [(0xAB : Byte), 0xCD].length ∧ 0xFFD < 4096 ∧ (0xFFD < 0xFFE ∨ 0xFFE + [(0xAB : Byte), 0xCD].length ≤ 0xFFD) := by
  decide
theorem witness_BulkLoadCopiesAllOrNothing_rom : (List.replicate 3585 (0 : Byte)).length > 3584 ∧
    ¬ (List.replicate 3584 (0 : Byte)).length > 3584 := by
  simp only [List.length_replicate]; decide

end Sys2Proof.Tests
end

section
/-! SUPPORT. The control-flow instructions that only move pc (41_control_flow.md R122, R124 to R127): what the decoder gives
for each of their words, what `exec` answers, and the obligations JpSetsPc, SkipOnImmediate and SkipOnRegisters. -/

namespace Sys2Proof

/-! ### The words of groups 1, 3, 4, 5 and 9 under the decoder (R86, R87) -/

@[simp] theorem decodeWord_group1 (nnn : Addr) : decodeWord (wordNNN 0x1 nnn) = some (.jp nnn) := by
  rw [decodeWord, fieldGroup_wordNNN, fieldNNN_wordNNN]
  rfl

@[simp] theorem decodeWord_group3 (x : Reg) (nn : Byte) : decodeWord (wordXNN 0x3 x nn) = some (.seByte x nn) := by
  rw [decodeWord, fieldGroup_wordXNN, fieldX_wordXNN, fieldNN_wordXNN]
  rfl

@[simp] theorem decodeWord_group4 (x : Reg) (nn : Byte) : decodeWord (wordXNN 0x4 x nn) = some (.sneByte x nn) := by
  rw [decodeWord, fieldGroup_wordXNN, fieldX_wordXNN, fieldNN_wordXNN]
  rfl

/-- Group 5 is valid only with low nibble 0 (R126). -/
@[simp] theorem decodeWord_group5 (x y : Reg) (n : Nibble) :
    decodeWord (wordXYN 0x5 x y n) = if n = 0 then some (.seReg x y) else none := by
  rw [decodeWord, fieldGroup_wordXYN, fieldX_wordXYN, fieldY_wordXYN, fieldN_wordXYN]
  rfl

/-- Group 9 is valid only with low nibble 0 (R127). -/
@[simp] theorem decodeWord_group9 (x y : Reg) (n : Nibble) :
    decodeWord (wordXYN 0x9 x y n) = if n = 0 then some (.sneReg x y) else none := by
  rw [decodeWord, fieldGroup_wordXYN, fieldX_wordXYN, fieldY_wordXYN, fieldN_wordXYN]
  rfl

namespace Machine

/-! ### What the instructions answer -/

theorem exec_jp (nnn : Addr) (s : State) : exec (.jp nnn) s = .next (s.setPc (addrImm nnn)) := rfl

theorem exec_seByte (x : Reg) (nn : Byte) (s : State) :
    exec (.seByte x nn) s = .next (s.skipIf (decide (s.reg x = nn))) := rfl

theorem exec_sneByte (x : Reg) (nn : Byte) (s : State) :
    exec (.sneByte x nn) s = .next (s.skipIf (decide (s.reg x ≠ nn))) := rfl

theorem exec_seReg (x y : Reg) (s : State) :
    exec (.seReg x y) s = .next (s.skipIf (decide (s.reg x = s.reg y))) := rfl

theorem exec_sneReg (x y : Reg) (s : State) :
    exec (.sneReg x y) s = .next (s.skipIf (decide (s.reg x ≠ s.reg y))) := rfl

/-- An instruction that answers a conditional skip moves pc two further exactly on its condition, and changes nothing
but pc. -/
theorem answer_of_skipIf {o : Result} {s : State} {p : Prop} [Decidable p] (ho : o = .next (s.skipIf (decide p))) :
    ∃ t, o = .next t ∧ t.pc = (if p then s.pc + 2 else s.pc) ∧ ChangesOnly { pc := true } s t :=
  ⟨s.skipIf (decide p), ho, by simp only [State.skipIf_pc, decide_eq_true_eq], ChangesOnly.skipIf s _ rfl⟩

/-- The same for an instruction that skips when its condition fails. -/
theorem answer_of_skipIf_not {o : Result} {s : State} {p : Prop} [Decidable p]
    (ho : o = .next (s.skipIf (decide (¬ p)))) :
    ∃ t, o = .next t ∧ t.pc = (if p then s.pc else s.pc + 2) ∧ ChangesOnly { pc := true } s t := by
  simpa only [ite_not] using answer_of_skipIf ho

/-! ### The obligations -/

/-- Settles O11: the condition is equality with nn for SE and its negation for SNE. -/
theorem skipOnImmediate : Obligations.SkipOnImmediate := by
  intro x nn s
  constructor
  case left => exact ⟨decodeWord_group3 x nn, answer_of_skipIf (exec_seByte x nn s)⟩
  case right => exact ⟨decodeWord_group4 x nn, answer_of_skipIf_not (exec_sneByte x nn s)⟩

/-- Settles O12: the decoder's equations for groups 5 and 9 give the valid word at low nibble 0 and nothing elsewhere; the
condition is equality of the two registers for SE and its negation for SNE. -/
theorem skipOnRegisters : Obligations.SkipOnRegisters := by
  intro x y s
  constructor
  case left =>
    have hinvalid : ∀ n, n ≠ 0 → decodeWord (wordXYN 0x5 x y n) = none := fun n hn => by
      rw [decodeWord_group5, if_neg hn]
    exact ⟨decodeWord_group5 x y 0, hinvalid, answer_of_skipIf (exec_seReg x y s)⟩
  case right =>
    have hinvalid : ∀ n, n ≠ 0 → decodeWord (wordXYN 0x9 x y n) = none := fun n hn => by
      rw [decodeWord_group9, if_neg hn]
    exact ⟨decodeWord_group9 x y 0, hinvalid, answer_of_skipIf_not (exec_sneReg x y s)⟩

/-- Settles O9: the target is the address zero-extended, and a write of pc changes pc alone. -/
theorem jpSetsPc : Obligations.JpSetsPc := fun nnn s =>
  ⟨decodeWord_group1 nnn, s.setPc (addrImm nnn), exec_jp nnn s, addrImm_toNat nnn, ChangesOnly.setPc s _ rfl⟩

end Machine

end Sys2Proof
end

section
/-! SUPPORT. Register loads, arithmetic and logic (42_register_alu.md R141 to R151): what the decoder gives for the words of
groups 6, 7 and 8, what `exec` answers, and the obligations about them. An operation writes Vx alone, or Vx and then VF. -/

namespace Sys2Proof

/-! ### The words of groups 6, 7 and 8 under the decoder (R86, R87, R89) -/

@[simp] theorem decodeWord_group6 (x : Reg) (nn : Byte) : decodeWord (wordXNN 0x6 x nn) = some (.ldByte x nn) := by
  rw [decodeWord, fieldGroup_wordXNN, fieldX_wordXNN, fieldNN_wordXNN]
  rfl

@[simp] theorem decodeWord_group7 (x : Reg) (nn : Byte) : decodeWord (wordXNN 0x7 x nn) = some (.addByte x nn) := by
  rw [decodeWord, fieldGroup_wordXNN, fieldX_wordXNN, fieldNN_wordXNN]
  rfl

theorem decodeWord_group8 (x y : Reg) (n : Nibble) :
    decodeWord (wordXYN 0x8 x y n) = decodeGroup8 (wordXYN 0x8 x y n) := by
  rw [decodeWord, fieldGroup_wordXYN]
  rfl

/-- A row of group 8, selected by its low nibble alone, gives its operation on the fields x and y. -/
theorem decodeWord_group8_of_row {op : Reg → Reg → Instr} {n : Nibble} (x y : Reg)
    (hrow : ∀ w, fieldN w = n → decodeGroup8 w = some (op (fieldX w) (fieldY w))) :
    decodeWord (wordXYN 0x8 x y n) = some (op x y) := by
  rw [decodeWord_group8, hrow _ (fieldN_wordXYN 0x8 x y n), fieldX_wordXYN, fieldY_wordXYN]

@[simp] theorem decodeWord_ldReg (x y : Reg) : decodeWord (wordXYN 0x8 x y 0x0) = some (.ldReg x y) :=
  decodeWord_group8_of_row x y fun _ hn => by rw [decodeGroup8, hn]; rfl

@[simp] theorem decodeWord_orReg (x y : Reg) : decodeWord (wordXYN 0x8 x y 0x1) = some (.orReg x y) :=
  decodeWord_group8_of_row x y fun _ hn => by rw [decodeGroup8, hn]; rfl

@[simp] theorem decodeWord_andReg (x y : Reg) : decodeWord (wordXYN 0x8 x y 0x2) = some (.andReg x y) :=
  decodeWord_group8_of_row x y fun _ hn => by rw [decodeGroup8, hn]; rfl

@[simp] theorem decodeWord_xorReg (x y : Reg) : decodeWord (wordXYN 0x8 x y 0x3) = some (.xorReg x y) :=
  decodeWord_group8_of_row x y fun _ hn => by rw [decodeGroup8, hn]; rfl

@[simp] theorem decodeWord_addReg (x y : Reg) : decodeWord (wordXYN 0x8 x y 0x4) = some (.addReg x y) :=
  decodeWord_group8_of_row x y fun _ hn => by rw [decodeGroup8, hn]; rfl

@[simp] theorem decodeWord_subReg (x y : Reg) : decodeWord (wordXYN 0x8 x y 0x5) = some (.subReg x y) :=
  decodeWord_group8_of_row x y fun _ hn => by rw [decodeGroup8, hn]; rfl

@[simp] theorem decodeWord_shr (x y : Reg) : decodeWord (wordXYN 0x8 x y 0x6) = some (.shr x y) :=
  decodeWord_group8_of_row x y fun _ hn => by rw [decodeGroup8, hn]; rfl

@[simp] theorem decodeWord_subnReg (x y : Reg) : decodeWord (wordXYN 0x8 x y 0x7) = some (.subnReg x y) :=
  decodeWord_group8_of_row x y fun _ hn => by rw [decodeGroup8, hn]; rfl

@[simp] theorem decodeWord_shl (x y : Reg) : decodeWord (wordXYN 0x8 x y 0xE) = some (.shl x y) :=
  decodeWord_group8_of_row x y fun _ hn => by rw [decodeGroup8, hn]; rfl

namespace Machine

/-! ### What the instructions answer -/

theorem exec_ldByte (x : Reg) (nn : Byte) (s : State) : exec (.ldByte x nn) s = .next (s.setReg x nn) := rfl

theorem exec_addByte (x : Reg) (nn : Byte) (s : State) :
    exec (.addByte x nn) s = .next (s.setReg x (s.reg x + nn)) := rfl

theorem exec_ldReg (x y : Reg) (s : State) : exec (.ldReg x y) s = .next (s.setReg x (s.reg y)) := rfl

theorem exec_orReg (x y : Reg) (s : State) :
    exec (.orReg x y) s = .next (s.setReg x (s.reg x ||| s.reg y)) := rfl

theorem exec_andReg (x y : Reg) (s : State) :
    exec (.andReg x y) s = .next (s.setReg x (s.reg x &&& s.reg y)) := rfl

theorem exec_xorReg (x y : Reg) (s : State) :
    exec (.xorReg x y) s = .next (s.setReg x (s.reg x ^^^ s.reg y)) := rfl

theorem exec_addReg (x y : Reg) (s : State) : exec (.addReg x y) s =
    .next ((s.setReg x (s.reg x + s.reg y)).setFlag (carryFlag (s.reg x) (s.reg y))) := rfl

theorem exec_subReg (x y : Reg) (s : State) : exec (.subReg x y) s =
    .next ((s.setReg x (s.reg x - s.reg y)).setFlag (noBorrowFlag (s.reg x) (s.reg y))) := rfl

theorem exec_subnReg (x y : Reg) (s : State) : exec (.subnReg x y) s =
    .next ((s.setReg x (s.reg y - s.reg x)).setFlag (noBorrowFlag (s.reg y) (s.reg x))) := rfl

theorem exec_shr (x y : Reg) (s : State) :
    exec (.shr x y) s = .next ((s.setReg x (s.reg x >>> 1)).setFlag (lowBitFlag (s.reg x))) := rfl

theorem exec_shl (x y : Reg) (s : State) :
    exec (.shl x y) s = .next ((s.setReg x (s.reg x <<< 1)).setFlag (highBitFlag (s.reg x))) := rfl

/-! ### The flag byte and the results as numbers (R142, R147 to R151) -/

theorem flagByte_toNat_of_iff {c : Bool} {p : Prop} [Decidable p] (h : c = true ↔ p) :
    (flagByte c).toNat = if p then 1 else 0 := by
  simp only [flagByte_eq, ← h]
  cases c <;> rfl

theorem lowBitFlag_toNat (a : Byte) : (flagByte (lowBitFlag a)).toNat = a.toNat % 2 := by
  rw [flagByte_toNat_of_iff (lowBitFlag_iff a)]
  split <;> omega

theorem highBitFlag_toNat (a : Byte) : (flagByte (highBitFlag a)).toNat = a.toNat / 128 := by
  have ha : a.toNat < 256 := a.isLt
  rw [flagByte_toNat_of_iff (highBitFlag_iff a)]
  split <;> omega

/-- A subtraction wraps mod 256; 256 is added before the subtraction, which natural numbers cut off at 0. -/
theorem byte_sub_toNat (a b : Byte) : (a - b).toNat = (256 + a.toNat - b.toNat) % 256 := by
  have hb : b.toNat < 256 := b.isLt
  rw [BitVec.toNat_sub]
  omega

theorem byte_shiftRight_one_toNat (a : Byte) : (a >>> 1).toNat = a.toNat / 2 := by
  rw [BitVec.toNat_ushiftRight, Nat.shiftRight_eq_div_pow, Nat.pow_one]

theorem byte_shiftLeft_one_toNat (a : Byte) : (a <<< 1).toNat = a.toNat * 2 % 256 := by
  rw [BitVec.toNat_shiftLeft, Nat.shiftLeft_eq, Nat.pow_one]

/-! ### The two shapes of answer: Vx alone, and Vx with VF behind it (R140) -/

theorem ChangesOnly.setReg_self (s : State) (x : Reg) (b : Byte) : ChangesOnly { regs := [x] } s (s.setReg x b) :=
  ChangesOnly.setReg s b (List.mem_singleton_self x)

/-- An instruction that writes Vx and nothing else answers a state whose Vx has every property of the byte written. -/
theorem answer_of_setReg {o : Result} {s : State} {x : Reg} {b : Byte} (P : Byte → Prop)
    (ho : o = .next (s.setReg x b)) (hb : P b) :
    ∃ t, o = .next t ∧ P (t.reg x) ∧ ChangesOnly { regs := [x] } s t :=
  ⟨s.setReg x b, ho, (s.setReg_reg_self x b).symm ▸ hb, ChangesOnly.setReg_self s x b⟩

/-- A logic operation: bit k of Vx becomes a Boolean function of bit k of the two old registers. -/
theorem answer_of_bitwise {o : Result} {s : State} {x y : Reg} {b : Byte} (f : Bool → Bool → Bool)
    (ho : o = .next (s.setReg x b)) (hb : ∀ k, b.getLsbD k = f ((s.reg x).getLsbD k) ((s.reg y).getLsbD k)) :
    ∃ t, o = .next t ∧ ChangesOnly { regs := [x] } s t ∧
      ∀ k, (t.reg x).getLsbD k = f ((s.reg x).getLsbD k) ((s.reg y).getLsbD k) :=
  ⟨s.setReg x b, ho, ChangesOnly.setReg_self s x b, (s.setReg_reg_self x b).symm ▸ hb⟩

/-- An instruction that writes Vx and then the flag: VF is the flag even for x = F, and Vx keeps the result for any other
x. -/
theorem answer_of_setReg_setFlag {o : Result} {s : State} {x : Reg} {b : Byte} {c : Bool} {flag value : Nat}
    (ho : o = .next ((s.setReg x b).setFlag c)) (hc : (flagByte c).toNat = flag) (hb : b.toNat = value) :
    ∃ t, o = .next t ∧ (t.reg vF).toNat = flag ∧ (x ≠ vF → (t.reg x).toNat = value) ∧
      ChangesOnly { regs := [x, vF] } s t := by
  refine ⟨_, ho, ?flag, ?value, ?frame⟩
  case flag => rw [State.setFlag_reg_vF, hc]
  case value =>
    intro hx
    rw [State.setFlag_reg_ne _ _ hx, State.setReg_reg_self, hb]
  case frame => exact (ChangesOnly.setReg s b (by simp)).trans (ChangesOnly.setFlag _ c (by simp))

/-- An instruction that writes Vx and then the flag whatever its second operand y is: one next state serves every y. -/
theorem answer_of_shift {s : State} {x : Reg} {b : Byte} {c : Bool} {flag value : Nat} (o : Reg → Result) (y : Reg)
    (ho : ∀ y', o y' = .next ((s.setReg x b).setFlag c)) (hc : (flagByte c).toNat = flag) (hb : b.toNat = value) :
    ∃ t, o y = .next t ∧ (∀ y', o y' = .next t) ∧ (t.reg vF).toNat = flag ∧ (x ≠ vF → (t.reg x).toNat = value) ∧
      ChangesOnly { regs := [x, vF] } s t := by
  obtain ⟨t, ht, hanswer⟩ := answer_of_setReg_setFlag (ho y) hc hb
  have hany : ∀ y', o y' = .next t := fun y' => by rw [ho y', ← ho y, ht]
  exact ⟨t, ht, hany, hanswer⟩

/-! ### The obligations -/

/-- Settles O1: the byte written is the immediate. -/
theorem ldByteLoadsImmediate : Obligations.LdByteLoadsImmediate := fun x nn s =>
  ⟨decodeWord_group6 x nn, answer_of_setReg (· = nn) (exec_ldByte x nn s) rfl⟩

/-- Settles O2: the byte written is the sum, which wraps mod 256, and VF is outside the footprint. -/
theorem addByteWrapsWithoutFlag : Obligations.AddByteWrapsWithoutFlag := fun x nn s =>
  ⟨decodeWord_group7 x nn, answer_of_setReg (·.toNat = ((s.reg x).toNat + nn.toNat) % 256) (exec_addByte x nn s)
    (BitVec.toNat_add (s.reg x) nn)⟩

/-- Settles O3: the byte written is Vy as it stood before. -/
theorem ldRegCopiesRegister : Obligations.LdRegCopiesRegister := fun x y s =>
  ⟨decodeWord_ldReg x y, answer_of_setReg (· = s.reg y) (exec_ldReg x y s) rfl⟩

/-- Settles O4: the library's bit equations of the three operations, and VF is outside the footprint. -/
theorem logicOperationsBitwise : Obligations.LogicOperationsBitwise := by
  intro x y s
  refine ⟨⟨decodeWord_orReg x y, ?or⟩, ⟨decodeWord_andReg x y, ?and⟩, ⟨decodeWord_xorReg x y, ?xor⟩⟩
  case or => exact answer_of_bitwise or (exec_orReg x y s) fun _ => BitVec.getLsbD_or
  case and => exact answer_of_bitwise and (exec_andReg x y s) fun _ => BitVec.getLsbD_and
  case xor => exact answer_of_bitwise xor (exec_xorReg x y s) fun _ => BitVec.getLsbD_xor

/-- Settles O5: the flag is the carry of the old operands, written behind the wrapped sum. -/
theorem addRegSetsCarryLast : Obligations.AddRegSetsCarryLast := fun x y s =>
  ⟨decodeWord_addReg x y, answer_of_setReg_setFlag (exec_addReg x y s)
    (flagByte_toNat_of_iff (carryFlag_iff _ _)) (BitVec.toNat_add _ _)⟩

/-- Settles O6: SUBN is SUB with the operands exchanged, in the difference and in the flag. -/
theorem subtractionsSetNoBorrowLast : Obligations.SubtractionsSetNoBorrowLast := by
  intro x y s
  constructor
  case left =>
    exact ⟨decodeWord_subReg x y, answer_of_setReg_setFlag (exec_subReg x y s)
      (flagByte_toNat_of_iff (noBorrowFlag_iff _ _)) (byte_sub_toNat _ _)⟩
  case right =>
    exact ⟨decodeWord_subnReg x y, answer_of_setReg_setFlag (exec_subnReg x y s)
      (flagByte_toNat_of_iff (noBorrowFlag_iff _ _)) (byte_sub_toNat _ _)⟩

/-- Settles O7: the answer of a shift does not name Vy, so one next state serves every y. -/
theorem shiftsMoveVxAndIgnoreVy : Obligations.ShiftsMoveVxAndIgnoreVy := by
  intro x y s
  constructor
  case left =>
    exact ⟨decodeWord_shr x y, answer_of_shift (fun y' => exec (.shr x y') s) y (fun y' => exec_shr x y' s)
      (lowBitFlag_toNat _) (byte_shiftRight_one_toNat _)⟩
  case right =>
    exact ⟨decodeWord_shl x y, answer_of_shift (fun y' => exec (.shl x y') s) y (fun y' => exec_shl x y' s)
      (highBitFlag_toNat _) (byte_shiftLeft_one_toNat _)⟩

end Machine

end Sys2Proof
end

section
/-! SUPPORT. The instructions that load I and touch nothing else (43_index_memory.md R170, R172): what the decoder gives for
their words, what `exec` answers, and the obligations LdISetsAddress and LdFontMultipliesByFive. -/

namespace Sys2Proof

/-! ### The words of groups A and F under the decoder (R86, R87) -/

@[simp] theorem decodeWord_groupA (nnn : Addr) : decodeWord (wordNNN 0xA nnn) = some (.ldI nnn) := by
  rw [decodeWord, fieldGroup_wordNNN, fieldNNN_wordNNN]
  rfl

theorem decodeWord_groupF (x : Reg) (nn : Byte) :
    decodeWord (wordXNN 0xF x nn) = decodeGroupF (wordXNN 0xF x nn) := by
  rw [decodeWord, fieldGroup_wordXNN]
  rfl

@[simp] theorem decodeWord_ldFont (x : Reg) : decodeWord (wordXNN 0xF x 0x29) = some (.ldFont x) := by
  rw [decodeWord_groupF, decodeGroupF, fieldNN_wordXNN, fieldX_wordXNN]
  rfl

namespace Machine

/-! ### What the instructions answer -/

theorem exec_ldI (nnn : Addr) (s : State) : exec (.ldI nnn) s = .next (s.setI (addrImm nnn)) := rfl

theorem exec_ldFont (x : Reg) (s : State) : exec (.ldFont x) s = .next (s.setI (byteWord (s.reg x) * 5)) := rfl

/-- Five times any byte fits in 16 bits, so the product of R172 is never reduced. -/
theorem byteWord_mul_five_toNat (b : Byte) : (byteWord b * 5).toNat = b.toNat * 5 := by
  have hfits : b.toNat * 5 < 2 ^ 16 := by have := b.isLt; omega
  calc (byteWord b * 5).toNat
      = b.toNat * 5 % 2 ^ 16 := by rw [BitVec.toNat_mul, byteWord_toNat]; rfl
    _ = b.toNat * 5 := Nat.mod_eq_of_lt hfits

/-! ### The obligations -/

/-- Settles O20: the product is taken in 16 bits, where it fits, and a write of I changes I alone. -/
theorem ldFontMultipliesByFive : Obligations.LdFontMultipliesByFive := fun x s =>
  ⟨decodeWord_ldFont x, s.setI (byteWord (s.reg x) * 5), exec_ldFont x s, byteWord_mul_five_toNat (s.reg x),
    ChangesOnly.setI s _ rfl⟩

/-- Settles O18: the address is zero-extended, so its 12 bits bound I, and a write of I changes I alone. -/
theorem ldISetsAddress : Obligations.LdISetsAddress := by
  intro nnn s
  have hi : (s.setI (addrImm nnn)).i.toNat = nnn.toNat := addrImm_toNat nnn
  have hbound : (s.setI (addrImm nnn)).i.toNat ≤ 0x0FFF := by
    rw [hi]
    exact Nat.le_of_lt_succ nnn.isLt
  exact ⟨decodeWord_groupA nnn, s.setI (addrImm nnn), exec_ldI nnn s, hi, hbound, ChangesOnly.setI s _ rfl⟩

end Machine

end Sys2Proof
end

section
/-! SUPPORT. The read of the delay timer (45_keypad_timers.md R214): what the decoder gives for its word, what `exec`
answers, and the obligation LdVxDtReadsDelayTimer. -/

namespace Sys2Proof

@[simp] theorem decodeWord_ldFromDt (x : Reg) : decodeWord (wordXNN 0xF x 0x07) = some (.ldFromDt x) := by
  rw [decodeWord_groupF, decodeGroupF, fieldNN_wordXNN, fieldX_wordXNN]
  rfl

namespace Machine

theorem exec_ldFromDt (x : Reg) (s : State) : exec (.ldFromDt x) s = .next (s.setReg x s.dt) := rfl

/-- Settles O31: the byte written to Vx is DT as it stood before, and a register write keeps the timers. -/
theorem ldVxDtReadsDelayTimer : Obligations.LdVxDtReadsDelayTimer := fun x s =>
  ⟨decodeWord_ldFromDt x, s.setReg x s.dt, exec_ldFromDt x s, s.setReg_reg_self x s.dt, s.setReg_dt x s.dt,
    ChangesOnly.setReg_self s x s.dt⟩

end Machine

end Sys2Proof
end

section
/-! SUPPORT. Pause and Resume, and the gate of a paused machine (40_sequencer.md R100; 60_exceptions.md R240, R249): the
second of two writes of paused prevails, a paused Step changes nothing, and the obligation PauseAndResumeGateTheClocks. -/

namespace Sys2Proof.Machine

@[simp] theorem State.setPaused_setPaused (s : State) (b c : Bool) : (s.setPaused b).setPaused c = s.setPaused c := rfl

/-- A paused Step changes nothing. -/
theorem step_of_paused {s : State} (h : s.paused = true) : step s = .next s := by
  rw [step, runStep, if_pos h]

/-- Settles O56: Pause and Resume are writes of paused alone, the second of two such writes prevails, and paused is the
gate at the top of both Step and Tick. -/
theorem pauseAndResumeGateTheClocks : Obligations.PauseAndResumeGateTheClocks := by
  intro s
  have hpause : perform .pause s = .next { s with paused := true } := rfl
  have hresume : perform .resume s = .next { s with paused := false } := rfl
  have hpauseTwice : pause (pause s) = pause s := s.setPaused_setPaused true true
  have hresumeTwice : resume (resume s) = resume s := s.setPaused_setPaused false false
  refine ⟨hpause, hresume, hpauseTwice, hresumeTwice, fun hpaused => ?_⟩
  have hstep : perform .step s = .next s := step_of_paused hpaused
  have htick : perform .tick s = .next s := congrArg Host.Outcome.next (tick_of_paused hpaused)
  exact ⟨hstep, htick⟩

end Sys2Proof.Machine
end

section
/-! SUPPORT. Decoding and encoding undo each other, and decoding agrees with the opcode map (30_encoding.md R80 to R90):
what the decoder gives for the words of groups 0, 2, B to F, the encoding rebuilt from the fields of a word that decodes, and
the obligations DecodeInvertsEncode, EncodeInvertsDecode, InvalidWordsNameNoRow, DispatchSelectsTheOneRow and
HandEncodedWordsDecode. -/

namespace Sys2Proof

/-! ### The words of groups 0, 2, B, C, D, E and F under the decoder (R86 to R88) -/

@[simp] theorem decodeWord_cls : decodeWord 0x00E0 = some .cls := rfl

@[simp] theorem decodeWord_ret : decodeWord 0x00EE = some .ret := rfl

@[simp] theorem decodeWord_group2 (nnn : Addr) : decodeWord (wordNNN 0x2 nnn) = some (.call nnn) := by
  rw [decodeWord, fieldGroup_wordNNN, fieldNNN_wordNNN]
  rfl

@[simp] theorem decodeWord_groupB (nnn : Addr) : decodeWord (wordNNN 0xB nnn) = some (.jpV0 nnn) := by
  rw [decodeWord, fieldGroup_wordNNN, fieldNNN_wordNNN]
  rfl

@[simp] theorem decodeWord_groupC (x : Reg) (nn : Byte) : decodeWord (wordXNN 0xC x nn) = some (.rnd x nn) := by
  rw [decodeWord, fieldGroup_wordXNN, fieldX_wordXNN, fieldNN_wordXNN]
  rfl

@[simp] theorem decodeWord_groupD (x y : Reg) (n : Nibble) :
    decodeWord (wordXYN 0xD x y n) = some (.drw x y n) := by
  rw [decodeWord, fieldGroup_wordXYN, fieldX_wordXYN, fieldY_wordXYN, fieldN_wordXYN]
  rfl

/-- A row of group E, selected by its low byte alone, gives its operation on the field x. -/
theorem decodeWord_groupE_of_row {op : Reg → Instr} {nn : Byte} (x : Reg)
    (hrow : ∀ w, fieldNN w = nn → decodeGroupE w = some (op (fieldX w))) :
    decodeWord (wordXNN 0xE x nn) = some (op x) := by
  have hgroup : decodeWord (wordXNN 0xE x nn) = decodeGroupE (wordXNN 0xE x nn) := by
    rw [decodeWord, fieldGroup_wordXNN]
    rfl
  rw [hgroup, hrow _ (fieldNN_wordXNN 0xE x nn), fieldX_wordXNN]

/-- A row of group F, selected by its low byte alone, gives its operation on the field x. -/
theorem decodeWord_groupF_of_row {op : Reg → Instr} {nn : Byte} (x : Reg)
    (hrow : ∀ w, fieldNN w = nn → decodeGroupF w = some (op (fieldX w))) :
    decodeWord (wordXNN 0xF x nn) = some (op x) := by
  rw [decodeWord_groupF, hrow _ (fieldNN_wordXNN 0xF x nn), fieldX_wordXNN]

@[simp] theorem decodeWord_skp (x : Reg) : decodeWord (wordXNN 0xE x 0x9E) = some (.skp x) :=
  decodeWord_groupE_of_row x fun _ hnn => by rw [decodeGroupE, hnn]; rfl

@[simp] theorem decodeWord_sknp (x : Reg) : decodeWord (wordXNN 0xE x 0xA1) = some (.sknp x) :=
  decodeWord_groupE_of_row x fun _ hnn => by rw [decodeGroupE, hnn]; rfl

@[simp] theorem decodeWord_ldToDt (x : Reg) : decodeWord (wordXNN 0xF x 0x15) = some (.ldToDt x) :=
  decodeWord_groupF_of_row x fun _ hnn => by rw [decodeGroupF, hnn]; rfl

@[simp] theorem decodeWord_ldToSt (x : Reg) : decodeWord (wordXNN 0xF x 0x18) = some (.ldToSt x) :=
  decodeWord_groupF_of_row x fun _ hnn => by rw [decodeGroupF, hnn]; rfl

@[simp] theorem decodeWord_ldKey (x : Reg) : decodeWord (wordXNN 0xF x 0x0A) = some (.ldKey x) :=
  decodeWord_groupF_of_row x fun _ hnn => by rw [decodeGroupF, hnn]; rfl

@[simp] theorem decodeWord_addI (x : Reg) : decodeWord (wordXNN 0xF x 0x1E) = some (.addI x) :=
  decodeWord_groupF_of_row x fun _ hnn => by rw [decodeGroupF, hnn]; rfl

@[simp] theorem decodeWord_ldBcd (x : Reg) : decodeWord (wordXNN 0xF x 0x33) = some (.ldBcd x) :=
  decodeWord_groupF_of_row x fun _ hnn => by rw [decodeGroupF, hnn]; rfl

@[simp] theorem decodeWord_storeRegs (x : Reg) : decodeWord (wordXNN 0xF x 0x55) = some (.storeRegs x) :=
  decodeWord_groupF_of_row x fun _ hnn => by rw [decodeGroupF, hnn]; rfl

@[simp] theorem decodeWord_loadRegs (x : Reg) : decodeWord (wordXNN 0xF x 0x65) = some (.loadRegs x) :=
  decodeWord_groupF_of_row x fun _ hnn => by rw [decodeGroupF, hnn]; rfl

/-! ### Decoding an encoding -/

@[simp] theorem decodeWord_encode (i : Instr) : decodeWord (encode i) = some i := by
  cases i with
  | cls => exact decodeWord_cls
  | ret => exact decodeWord_ret
  | jp nnn => exact decodeWord_group1 nnn
  | call nnn => exact decodeWord_group2 nnn
  | seByte x nn => exact decodeWord_group3 x nn
  | sneByte x nn => exact decodeWord_group4 x nn
  | seReg x y => exact decodeWord_group5 x y 0
  | sneReg x y => exact decodeWord_group9 x y 0
  | ldByte x nn => exact decodeWord_group6 x nn
  | addByte x nn => exact decodeWord_group7 x nn
  | ldReg x y => exact decodeWord_ldReg x y
  | orReg x y => exact decodeWord_orReg x y
  | andReg x y => exact decodeWord_andReg x y
  | xorReg x y => exact decodeWord_xorReg x y
  | addReg x y => exact decodeWord_addReg x y
  | subReg x y => exact decodeWord_subReg x y
  | shr x y => exact decodeWord_shr x y
  | subnReg x y => exact decodeWord_subnReg x y
  | shl x y => exact decodeWord_shl x y
  | ldI nnn => exact decodeWord_groupA nnn
  | jpV0 nnn => exact decodeWord_groupB nnn
  | rnd x nn => exact decodeWord_groupC x nn
  | drw x y n => exact decodeWord_groupD x y n
  | skp x => exact decodeWord_skp x
  | sknp x => exact decodeWord_sknp x
  | ldFromDt x => exact decodeWord_ldFromDt x
  | ldToDt x => exact decodeWord_ldToDt x
  | ldToSt x => exact decodeWord_ldToSt x
  | ldKey x => exact decodeWord_ldKey x
  | addI x => exact decodeWord_addI x
  | ldFont x => exact decodeWord_ldFont x
  | ldBcd x => exact decodeWord_ldBcd x
  | storeRegs x => exact decodeWord_storeRegs x
  | loadRegs x => exact decodeWord_loadRegs x

/-- The high byte and then the low byte of a word make the word again (R64). -/
theorem highByte_append_lowByte (w : Word) : (w.extractLsb' 8 8 ++ w.extractLsb' 0 8 : Word) = w := by
  apply BitVec.eq_of_toNat_eq
  have hw := w.isLt
  rw [toNat_append_add, BitVec.extractLsb'_toNat, BitVec.extractLsb'_toNat, Nat.shiftRight_eq_div_pow, Nat.shiftRight_zero]
  omega

theorem decode_wordBytes_append {w : Word} {i : Instr} (h : decodeWord w = some i) (rest : List Byte) :
    decode (wordBytes w ++ rest) = .ok (i, rest) := by
  rw [wordBytes, List.cons_append, List.cons_append, List.nil_append, decode, highByte_append_lowByte, h]

/-! ### Encoding what a word decodes to -/

theorem wordNNN_of_fields {w : Word} {g : BitVec 4} (hg : fieldGroup w = g) : wordNNN g (fieldNNN w) = w := by
  rw [← hg, ← word_eq_wordNNN]

theorem wordXNN_of_fields {w : Word} {g : BitVec 4} {nn : Byte} (hg : fieldGroup w = g) (hnn : fieldNN w = nn) :
    wordXNN g (fieldX w) nn = w := by
  rw [← hg, ← hnn, ← word_eq_wordXNN]

theorem wordXYN_of_fields {w : Word} {g : BitVec 4} {n : Nibble} (hg : fieldGroup w = g) (hn : fieldN w = n) :
    wordXYN g (fieldX w) (fieldY w) n = w := by
  rw [← hg, ← hn, ← word_eq_wordXYN]

theorem encode_of_decodeGroup0 {w : Word} {i : Instr} (h : decodeGroup0 w = some i) : encode i = w := by
  unfold decodeGroup0 at h
  split at h
  case isTrue hcls => cases h; exact hcls.symm
  case isFalse =>
    split at h
    case isTrue hret => cases h; exact hret.symm
    case isFalse => cases h

/-- Each arm of group 8 rebuilds its word from the nibble it selects and the two register fields. -/
theorem encode_of_decodeGroup8 {w : Word} {i : Instr} (hg : fieldGroup w = 0x8) (h : decodeGroup8 w = some i) :
    encode i = w := by
  unfold decodeGroup8 at h
  split at h <;> cases h <;> exact wordXYN_of_fields hg ‹_›

/-- Each arm of group E rebuilds its word from the low byte it selects and the register field. -/
theorem encode_of_decodeGroupE {w : Word} {i : Instr} (hg : fieldGroup w = 0xE) (h : decodeGroupE w = some i) :
    encode i = w := by
  unfold decodeGroupE at h
  split at h <;> cases h <;> exact wordXNN_of_fields hg ‹_›

/-- Each arm of group F rebuilds its word from the low byte it selects and the register field. -/
theorem encode_of_decodeGroupF {w : Word} {i : Instr} (hg : fieldGroup w = 0xF) (h : decodeGroupF w = some i) :
    encode i = w := by
  unfold decodeGroupF at h
  split at h <;> cases h <;> exact wordXNN_of_fields hg ‹_›

theorem encode_of_decodeWord {w : Word} {i : Instr} (h : decodeWord w = some i) : encode i = w := by
  unfold decodeWord at h
  split at h
  case h_1 => exact encode_of_decodeGroup0 h
  case h_2 hg => cases h; exact wordNNN_of_fields hg
  case h_3 hg => cases h; exact wordNNN_of_fields hg
  case h_4 hg => cases h; exact wordXNN_of_fields hg rfl
  case h_5 hg => cases h; exact wordXNN_of_fields hg rfl
  case h_6 hg =>
    split at h
    case isTrue hn => cases h; exact wordXYN_of_fields hg hn
    case isFalse => cases h
  case h_7 hg => cases h; exact wordXNN_of_fields hg rfl
  case h_8 hg => cases h; exact wordXNN_of_fields hg rfl
  case h_9 hg => exact encode_of_decodeGroup8 hg h
  case h_10 hg =>
    split at h
    case isTrue hn => cases h; exact wordXYN_of_fields hg hn
    case isFalse => cases h
  case h_11 hg => cases h; exact wordNNN_of_fields hg
  case h_12 hg => cases h; exact wordNNN_of_fields hg
  case h_13 hg => cases h; exact wordXNN_of_fields hg rfl
  case h_14 hg => cases h; exact wordXYN_of_fields hg rfl
  case h_15 hg => exact encode_of_decodeGroupE hg h
  case h_16 hg => exact encode_of_decodeGroupF hg h
  case h_17 => cases h

/-- A word decodes to the instruction whose encoding it is, and to no other. -/
theorem decodeWord_eq_some_iff {w : Word} {i : Instr} : decodeWord w = some i ↔ encode i = w :=
  ⟨encode_of_decodeWord, fun h => h ▸ decodeWord_encode i⟩

/-! ### The opcode map (R87): the row of an instruction, and the instruction a row's word encodes -/

/-- The family EncodesRow for a term of any constructor. -/
theorem row_mem_and_names_encode (i : Instr) : Laws.EncodesRow.Statement i := by
  cases i with
  | cls => exact Laws.EncodesRow.cls
  | ret => exact Laws.EncodesRow.ret
  | jp nnn => exact Laws.EncodesRow.jp nnn
  | call nnn => exact Laws.EncodesRow.call nnn
  | seByte x nn => exact Laws.EncodesRow.seByte x nn
  | sneByte x nn => exact Laws.EncodesRow.sneByte x nn
  | seReg x y => exact Laws.EncodesRow.seReg x y
  | sneReg x y => exact Laws.EncodesRow.sneReg x y
  | ldByte x nn => exact Laws.EncodesRow.ldByte x nn
  | addByte x nn => exact Laws.EncodesRow.addByte x nn
  | ldReg x y => exact Laws.EncodesRow.ldReg x y
  | orReg x y => exact Laws.EncodesRow.orReg x y
  | andReg x y => exact Laws.EncodesRow.andReg x y
  | xorReg x y => exact Laws.EncodesRow.xorReg x y
  | addReg x y => exact Laws.EncodesRow.addReg x y
  | subReg x y => exact Laws.EncodesRow.subReg x y
  | shr x y => exact Laws.EncodesRow.shr x y
  | subnReg x y => exact Laws.EncodesRow.subnReg x y
  | shl x y => exact Laws.EncodesRow.shl x y
  | ldI nnn => exact Laws.EncodesRow.ldI nnn
  | jpV0 nnn => exact Laws.EncodesRow.jpV0 nnn
  | rnd x nn => exact Laws.EncodesRow.rnd x nn
  | drw x y n => exact Laws.EncodesRow.drw x y n
  | skp x => exact Laws.EncodesRow.skp x
  | sknp x => exact Laws.EncodesRow.sknp x
  | ldFromDt x => exact Laws.EncodesRow.ldFromDt x
  | ldToDt x => exact Laws.EncodesRow.ldToDt x
  | ldToSt x => exact Laws.EncodesRow.ldToSt x
  | ldKey x => exact Laws.EncodesRow.ldKey x
  | addI x => exact Laws.EncodesRow.addI x
  | ldFont x => exact Laws.EncodesRow.ldFont x
  | ldBcd x => exact Laws.EncodesRow.ldBcd x
  | storeRegs x => exact Laws.EncodesRow.storeRegs x
  | loadRegs x => exact Laws.EncodesRow.loadRegs x

theorem names_iff {r : OpRow} {w : Word} : r.names w = true ↔ w &&& r.mask = r.pattern := by
  rw [OpRow.names, beq_iff_eq]

/-- A word that decodes names the row of its instruction, which is in the map. -/
theorem row_of_decodeWord {w : Word} {i : Instr} (h : decodeWord w = some i) :
    i.row ∈ opcodeTable ∧ w &&& i.row.mask = i.row.pattern := by
  obtain ⟨hmem, hnames⟩ := row_mem_and_names_encode i
  rw [encode_of_decodeWord h] at hnames
  exact ⟨hmem, names_iff.mp hnames⟩

theorem decodeWord_ne_none_of_encode {w : Word} (i : Instr) (h : encode i = w) : decodeWord w ≠ none := by
  rw [decodeWord_eq_some_iff.mpr h]
  exact Option.some_ne_none i

theorem decodeWord_ne_none_of_controlRows {w : Word} {r : OpRow} (hr : r ∈ controlRows)
    (h : w &&& r.mask = r.pattern) : decodeWord w ≠ none := by
  simp only [controlRows, List.mem_cons, List.not_mem_nil, or_false] at hr
  obtain rfl | rfl | rfl | rfl | rfl | rfl | rfl | rfl := hr
  · exact decodeWord_ne_none_of_encode .cls (h.symm.trans BitVec.and_allOnes)
  · exact decodeWord_ne_none_of_encode .ret (h.symm.trans BitVec.and_allOnes)
  · exact decodeWord_ne_none_of_encode (.jp _) (wordNNN_of_fields ((matches_F000 w 0x1).mp h))
  · exact decodeWord_ne_none_of_encode (.call _) (wordNNN_of_fields ((matches_F000 w 0x2).mp h))
  · exact decodeWord_ne_none_of_encode (.seByte _ _) (wordXNN_of_fields ((matches_F000 w 0x3).mp h) rfl)
  · exact decodeWord_ne_none_of_encode (.sneByte _ _) (wordXNN_of_fields ((matches_F000 w 0x4).mp h) rfl)
  · obtain ⟨hg, hn⟩ := (matches_F00F w 0x5 0x0).mp h
    exact decodeWord_ne_none_of_encode (.seReg _ _) (wordXYN_of_fields hg hn)
  · obtain ⟨hg, hn⟩ := (matches_F00F w 0x9 0x0).mp h
    exact decodeWord_ne_none_of_encode (.sneReg _ _) (wordXYN_of_fields hg hn)

/-- A word that names a row of group 8 is the encoding of its operation on the fields x and y. -/
theorem decodeWord_ne_none_of_group8 {w : Word} {n : Nibble} (op : Reg → Reg → Instr)
    (hop : ∀ x y, encode (op x y) = wordXYN 0x8 x y n) (h : w &&& 0xF00F = wordXYN 0x8 0 0 n) :
    decodeWord w ≠ none := by
  obtain ⟨hg, hn⟩ := (matches_F00F w 0x8 n).mp h
  exact decodeWord_ne_none_of_encode (op (fieldX w) (fieldY w)) ((hop _ _).trans (wordXYN_of_fields hg hn))

theorem decodeWord_ne_none_of_registerRows {w : Word} {r : OpRow} (hr : r ∈ registerRows)
    (h : w &&& r.mask = r.pattern) : decodeWord w ≠ none := by
  simp only [registerRows, List.mem_cons, List.not_mem_nil, or_false] at hr
  obtain rfl | rfl | rfl | rfl | rfl | rfl | rfl | rfl | rfl | rfl | rfl := hr
  · exact decodeWord_ne_none_of_encode (.ldByte _ _) (wordXNN_of_fields ((matches_F000 w 0x6).mp h) rfl)
  · exact decodeWord_ne_none_of_encode (.addByte _ _) (wordXNN_of_fields ((matches_F000 w 0x7).mp h) rfl)
  · exact decodeWord_ne_none_of_group8 .ldReg (fun _ _ => rfl) h
  · exact decodeWord_ne_none_of_group8 .orReg (fun _ _ => rfl) h
  · exact decodeWord_ne_none_of_group8 .andReg (fun _ _ => rfl) h
  · exact decodeWord_ne_none_of_group8 .xorReg (fun _ _ => rfl) h
  · exact decodeWord_ne_none_of_group8 .addReg (fun _ _ => rfl) h
  · exact decodeWord_ne_none_of_group8 .subReg (fun _ _ => rfl) h
  · exact decodeWord_ne_none_of_group8 .shr (fun _ _ => rfl) h
  · exact decodeWord_ne_none_of_group8 .subnReg (fun _ _ => rfl) h
  · exact decodeWord_ne_none_of_group8 .shl (fun _ _ => rfl) h

/-- A word that names a row keyed by group and low byte is the encoding of its operation on the field x. -/
theorem decodeWord_ne_none_of_lowByte {w : Word} {g : BitVec 4} {nn : Byte} (op : Reg → Instr)
    (hop : ∀ x, encode (op x) = wordXNN g x nn) (h : w &&& 0xF0FF = wordXNN g 0 nn) : decodeWord w ≠ none := by
  obtain ⟨hg, hnn⟩ := (matches_F0FF w g nn).mp h
  exact decodeWord_ne_none_of_encode (op (fieldX w)) ((hop _).trans (wordXNN_of_fields hg hnn))

theorem decodeWord_ne_none_of_indexDisplayRows {w : Word} {r : OpRow} (hr : r ∈ indexDisplayRows)
    (h : w &&& r.mask = r.pattern) : decodeWord w ≠ none := by
  simp only [indexDisplayRows, List.mem_cons, List.not_mem_nil, or_false] at hr
  obtain rfl | rfl | rfl | rfl | rfl | rfl := hr
  · exact decodeWord_ne_none_of_encode (.ldI _) (wordNNN_of_fields ((matches_F000 w 0xA).mp h))
  · exact decodeWord_ne_none_of_encode (.jpV0 _) (wordNNN_of_fields ((matches_F000 w 0xB).mp h))
  · exact decodeWord_ne_none_of_encode (.rnd _ _) (wordXNN_of_fields ((matches_F000 w 0xC).mp h) rfl)
  · exact decodeWord_ne_none_of_encode (.drw _ _ _) (wordXYN_of_fields ((matches_F000 w 0xD).mp h) rfl)
  · exact decodeWord_ne_none_of_lowByte (g := 0xE) .skp (fun _ => rfl) h
  · exact decodeWord_ne_none_of_lowByte (g := 0xE) .sknp (fun _ => rfl) h

theorem decodeWord_ne_none_of_keyTimerMemoryRows {w : Word} {r : OpRow} (hr : r ∈ keyTimerMemoryRows)
    (h : w &&& r.mask = r.pattern) : decodeWord w ≠ none := by
  simp only [keyTimerMemoryRows, List.mem_cons, List.not_mem_nil, or_false] at hr
  obtain rfl | rfl | rfl | rfl | rfl | rfl | rfl | rfl | rfl := hr
  · exact decodeWord_ne_none_of_lowByte .ldFromDt (fun _ => rfl) h
  · exact decodeWord_ne_none_of_lowByte .ldToDt (fun _ => rfl) h
  · exact decodeWord_ne_none_of_lowByte .ldToSt (fun _ => rfl) h
  · exact decodeWord_ne_none_of_lowByte .ldKey (fun _ => rfl) h
  · exact decodeWord_ne_none_of_lowByte .addI (fun _ => rfl) h
  · exact decodeWord_ne_none_of_lowByte .ldFont (fun _ => rfl) h
  · exact decodeWord_ne_none_of_lowByte .ldBcd (fun _ => rfl) h
  · exact decodeWord_ne_none_of_lowByte .storeRegs (fun _ => rfl) h
  · exact decodeWord_ne_none_of_lowByte .loadRegs (fun _ => rfl) h

/-- A word that names a row of the map decodes. -/
theorem decodeWord_ne_none_of_names {w : Word} {r : OpRow} (hr : r ∈ opcodeTable) (h : w &&& r.mask = r.pattern) :
    decodeWord w ≠ none := by
  simp only [opcodeTable, List.mem_append] at hr
  obtain ((hr | hr) | hr) | hr := hr
  · exact decodeWord_ne_none_of_controlRows hr h
  · exact decodeWord_ne_none_of_registerRows hr h
  · exact decodeWord_ne_none_of_indexDisplayRows hr h
  · exact decodeWord_ne_none_of_keyTimerMemoryRows hr h

/-- A word is invalid exactly when it names no row (R90). -/
theorem decodeWord_eq_none_iff {w : Word} :
    decodeWord w = none ↔ ∀ r ∈ opcodeTable, w &&& r.mask ≠ r.pattern := by
  constructor
  · intro hnone r hr hnames
    exact decodeWord_ne_none_of_names hr hnames hnone
  · intro hno
    cases hdecode : decodeWord w with
    | none => rfl
    | some i =>
      obtain ⟨hmem, hnames⟩ := row_of_decodeWord hdecode
      exact absurd hnames (hno i.row hmem)

theorem wordWellFormed_eq_false_iff {w : Word} : wordWellFormed w = false ↔ decodeWord w = none := by
  simp only [wordWellFormed, List.any_eq_false, names_iff, decodeWord_eq_none_iff, ne_eq]

/-! ### No word names two rows -/

/-- Two rows no word can name together: on the bits that both compare, their patterns differ. -/
def OpRow.Disjoint (r q : OpRow) : Prop := r.pattern &&& q.mask ≠ q.pattern &&& r.mask

theorem OpRow.Disjoint.symm {r q : OpRow} (h : r.Disjoint q) : q.Disjoint r := Ne.symm h

theorem OpRow.Disjoint.not_names {r q : OpRow} (h : r.Disjoint q) {w : Word} (hr : w &&& r.mask = r.pattern) :
    w &&& q.mask ≠ q.pattern := by
  intro hq
  apply h
  rw [← hr, ← hq, BitVec.and_assoc, BitVec.and_assoc, BitVec.and_comm r.mask]

theorem opcodeTable_pairwise_disjoint : opcodeTable.Pairwise OpRow.Disjoint := by
  unfold OpRow.Disjoint
  decide

theorem row_unique {w : Word} {r q : OpRow} (hr : r ∈ opcodeTable) (hq : q ∈ opcodeTable)
    (hrw : w &&& r.mask = r.pattern) (hqw : w &&& q.mask = q.pattern) : r = q := by
  by_contra hne
  have hsymm : Std.Symm OpRow.Disjoint := ⟨fun _ _ => OpRow.Disjoint.symm⟩
  have hdisjoint : r.Disjoint q := opcodeTable_pairwise_disjoint.forall hr hq hne
  exact hdisjoint.not_names hrw hqw

/-! ### The obligations -/

/-- Settles O33: by cases on the instruction, each built word has the fields it was built from, and the two bytes of a word
make it again. -/
theorem decodeInvertsEncode : Obligations.DecodeInvertsEncode := fun i rest =>
  ⟨decodeWord_encode i, decode_wordBytes_append (decodeWord_encode i) rest⟩

/-- Settles O34: each arm of the decoder keeps every field of the word it matches. -/
theorem encodeInvertsDecode : Obligations.EncodeInvertsDecode := fun _ _ => encode_of_decodeWord

/-- Settles O35: a row that a word names gives an instruction it encodes, and what a word decodes to gives a row. -/
theorem invalidWordsNameNoRow : Obligations.InvalidWordsNameNoRow := fun _ => decodeWord_eq_none_iff

/-- Settles O36: the rows of the map are pairwise disjoint. -/
theorem dispatchSelectsTheOneRow : Obligations.DispatchSelectsTheOneRow := by
  intro w i h
  obtain ⟨hmem, hnames⟩ := row_of_decodeWord h
  exact ⟨hmem, hnames, fun r hr hrw => row_unique hr hmem hrw hnames⟩

/-- Settles O37: twelve closed words, evaluated by the decoder. -/
theorem handEncodedWordsDecode : Obligations.HandEncodedWordsDecode := by
  unfold Obligations.HandEncodedWordsDecode
  decide

end Sys2Proof
end

section
/-! SUPPORT. What every instruction answers and what it leaves unchanged (10_state.md; 41_control_flow.md to
45_keypad_timers.md): the answers of `exec` that the sections above do not give, one frame for all 34 instructions, the two
ways in which one raises a fault, and the obligation FrameOfEveryInstruction. -/

namespace Sys2Proof.Machine

/-- An answer has one next state. -/
theorem answer_unique {o : Result} {t u : State} (hu : o = .next u) (ht : o = .next t) : u = t :=
  Host.Outcome.next.inj (hu.symm.trans ht)

/-! ### What the instructions answer -/

theorem exec_jpV0 (nnn : Addr) (s : State) :
    exec (.jpV0 nnn) s = .next (s.setPc (addrImm nnn + byteWord (s.reg 0))) := rfl

theorem exec_rnd (x : Reg) (nn : Byte) (s : State) : exec (.rnd x nn) s =
    .next ((s.setDraws (s.draws + 1)).setReg x (Config.draw s.generator s.draws &&& nn)) := rfl

theorem exec_cls (s : State) :
    exec .cls s = .next ((s.setDisplay blankGrid).setDirty (s.dirty || Grid.anyLit s.display)) := rfl

/-- The canvas on which DXYN has drawn its sprite (R191). -/
def State.drawn (s : State) (x y : Reg) (n : Nibble) : Canvas :=
  Canvas.plotRows ⟨s.display, false, false⟩ (s.reg x).toNat (s.reg y).toNat (s.spriteRows n)

theorem exec_drw (x y : Reg) (n : Nibble) (s : State) : exec (.drw x y n) s =
    .next (((s.setDisplay (s.drawn x y n).grid).setDirty (s.dirty || (s.drawn x y n).changed)).setFlag
      (s.drawn x y n).collided) := rfl

theorem exec_skp (x : Reg) (s : State) : exec (.skp x) s = .next (s.skipIf (s.pressed (s.reg x))) := rfl

theorem exec_sknp (x : Reg) (s : State) : exec (.sknp x) s = .next (s.skipIf (!s.pressed (s.reg x))) := rfl

theorem exec_ldToDt (x : Reg) (s : State) : exec (.ldToDt x) s = .next (s.setDt (s.reg x)) := rfl

theorem exec_ldToSt (x : Reg) (s : State) : exec (.ldToSt x) s = .next (s.setSt (s.reg x)) := rfl

theorem exec_ldKey (x : Reg) (s : State) : exec (.ldKey x) s =
    .next (s.chosenKey.elim s.rewind fun k => s.setReg x (BitVec.ofNat 8 k.val)) := by
  show execLdKey x s = _
  rw [execLdKey]
  cases s.chosenKey <;> rfl

theorem exec_addI (x : Reg) (s : State) : exec (.addI x) s =
    .next ((s.setI (s.i + byteWord (s.reg x))).setFlag (pastAddrFlag s.i (s.reg x))) := rfl

theorem exec_ldBcd (x : Reg) (s : State) :
    exec (.ldBcd x) s = .next (s.storeBytes (s.dataAddr 0) (bcdDigits (s.reg x))) := rfl

theorem exec_storeRegs (x : Reg) (s : State) :
    exec (.storeRegs x) s = .next (s.storeBytes (s.dataAddr 0) ((regRange x).map s.reg)) := rfl

/-- The state after V0 to V[x] are loaded from memory (R175). -/
def State.loaded (s : State) (x : Reg) : State :=
  (regRange x).foldl (fun t k => t.setReg k (t.memRead (t.dataAddr k.val))) s

theorem exec_loadRegs (x : Reg) (s : State) : exec (.loadRegs x) s = .next (s.loaded x) := rfl

/-- The state after a CALL with a free slot (R121). -/
def State.called (s : State) (nnn : Addr) (h : s.sp.val < 16) : State :=
  ((s.setStack (s.stack.set s.sp.val s.pc h)).setSp ⟨s.sp.val + 1, Nat.succ_lt_succ h⟩).setPc (addrImm nnn)

theorem exec_call_of_free (nnn : Addr) (s : State) (h : s.sp.val < 16) :
    exec (.call nnn) s = .next (s.called nnn h) := by
  show execCall nnn s = _
  rw [execCall, s.push_eq_some s.pc h]
  rfl

theorem exec_call_of_full (nnn : Addr) (s : State) (h : s.sp = 16) :
    exec (.call nnn) s = .next (s.raiseFault .stackOverflow (encode (.call nnn))) := by
  have hpush : s.push s.pc = none := (s.push_eq_none s.pc).mpr (by rw [h]; rfl)
  show execCall nnn s = _
  rw [execCall, hpush]

/-- The state after a RET with an occupied slot (R120). -/
def State.returned (s : State) (h : 0 < s.sp.val) : State :=
  (s.setSp ⟨s.sp.val - 1, by have := s.sp.isLt; omega⟩).setPc
    (s.stack[s.sp.val - 1]'(by have := s.sp.isLt; simp only [Config.stackDepth]; omega))

theorem exec_ret_of_occupied (s : State) (h : 0 < s.sp.val) : exec .ret s = .next (s.returned h) := by
  show execRet s = _
  rw [execRet, s.pop_eq_some h]
  rfl

theorem exec_ret_of_empty (s : State) (h : s.sp = 0) :
    exec .ret s = .next (s.raiseFault .stackUnderflow (encode .ret)) := by
  have hpop : s.pop = none := s.pop_eq_none.mpr (by rw [h]; rfl)
  show execRet s = _
  rw [execRet, hpop]

/-! ### The stack depth: a slot is free or none is, one is occupied or none is (R29) -/

theorem State.sp_free_or_full (s : State) : s.sp.val < 16 ∨ s.sp = 16 := by
  have hsp := s.sp.isLt
  by_cases h : s.sp.val < 16
  · exact .inl h
  · exact .inr (Fin.ext (show s.sp.val = 16 by omega))

theorem State.sp_occupied_or_empty (s : State) : 0 < s.sp.val ∨ s.sp = 0 := by
  obtain h | h := Nat.eq_zero_or_pos s.sp.val
  · exact .inr (Fin.ext h)
  · exact .inl h

/-- A CALL pushes, or with no free slot it is the entry of StackOverflow (R121). -/
theorem exec_call_cases {nnn : Addr} {s t : State} (h : exec (.call nnn) s = .next t) :
    (∃ hfree, s.called nnn hfree = t) ∨ (s.sp = 16 ∧ s.raiseFault .stackOverflow (encode (.call nnn)) = t) := by
  obtain hfree | hfull := s.sp_free_or_full
  · exact .inl ⟨hfree, answer_unique (exec_call_of_free nnn s hfree) h⟩
  · exact .inr ⟨hfull, answer_unique (exec_call_of_full nnn s hfull) h⟩

/-- A RET pops, or with no occupied slot it is the entry of StackUnderflow (R120). -/
theorem exec_ret_cases {s t : State} (h : exec .ret s = .next t) :
    (∃ hoccupied, s.returned hoccupied = t) ∨ (s.sp = 0 ∧ s.raiseFault .stackUnderflow (encode .ret) = t) := by
  obtain hoccupied | hempty := s.sp_occupied_or_empty
  · exact .inl ⟨hoccupied, answer_unique (exec_ret_of_occupied s hoccupied) h⟩
  · exact .inr ⟨hempty, answer_unique (exec_ret_of_empty s hempty) h⟩

/-! ### The frame of every instruction -/

theorem ChangesOnly.called {f : Footprint} (s : State) (nnn : Addr) (h : s.sp.val < 16) (hf : f.callStack = true)
    (hp : f.pc = true) : ChangesOnly f s (s.called nnn h) :=
  ((ChangesOnly.setStack s _ hf).trans (ChangesOnly.setSp _ _ hf)).trans (ChangesOnly.setPc _ _ hp)

theorem ChangesOnly.returned {f : Footprint} (s : State) (h : 0 < s.sp.val) (hf : f.callStack = true)
    (hp : f.pc = true) : ChangesOnly f s (s.returned h) :=
  (ChangesOnly.setSp s _ hf).trans (ChangesOnly.setPc _ _ hp)

/-- A result in Vx and then the flag in VF. -/
theorem ChangesOnly.setReg_setFlag (s : State) (x : Reg) (b : Byte) (c : Bool) :
    ChangesOnly { regs := [x, vF] } s ((s.setReg x b).setFlag c) :=
  (ChangesOnly.setReg s b (by simp)).trans (ChangesOnly.setFlag _ c (by simp))

/-- A run of data bytes from I changes the masked addresses of those bytes. -/
theorem ChangesOnly.storeData {f : Footprint} (s : State) (bs : List Byte) (hf : f.bytes = s.dataBytes bs.length) :
    ChangesOnly f s (s.storeBytes (s.dataAddr 0) bs) :=
  ChangesOnly.storeBytes s _ bs fun _ hk => hf ▸ s.mem_dataBytes hk

/-- Every instruction answers a next state, which differs from the old one only inside its footprint. -/
theorem exec_answers_within_footprint (i : Instr) (s : State) :
    ∃ t, exec i s = .next t ∧ ChangesOnly (footprint i s) s t := by
  cases i with
  | cls => exact ⟨_, exec_cls s, (ChangesOnly.setDisplay s _ rfl).trans (.setDirty _ _ rfl)⟩
  | ret =>
    obtain h | h := s.sp_occupied_or_empty
    · exact ⟨_, exec_ret_of_occupied s h, .returned s h rfl rfl⟩
    · exact ⟨_, exec_ret_of_empty s h, .raiseFault s _ _ rfl rfl⟩
  | jp nnn => exact ⟨_, exec_jp nnn s, .setPc s _ rfl⟩
  | call nnn =>
    obtain h | h := s.sp_free_or_full
    · exact ⟨_, exec_call_of_free nnn s h, .called s nnn h rfl rfl⟩
    · exact ⟨_, exec_call_of_full nnn s h, .raiseFault s _ _ rfl rfl⟩
  | seByte x nn => exact ⟨_, exec_seByte x nn s, .skipIf s _ rfl⟩
  | sneByte x nn => exact ⟨_, exec_sneByte x nn s, .skipIf s _ rfl⟩
  | seReg x y => exact ⟨_, exec_seReg x y s, .skipIf s _ rfl⟩
  | sneReg x y => exact ⟨_, exec_sneReg x y s, .skipIf s _ rfl⟩
  | ldByte x nn => exact ⟨_, exec_ldByte x nn s, .setReg_self s x _⟩
  | addByte x nn => exact ⟨_, exec_addByte x nn s, .setReg_self s x _⟩
  | ldReg x y => exact ⟨_, exec_ldReg x y s, .setReg_self s x _⟩
  | orReg x y => exact ⟨_, exec_orReg x y s, .setReg_self s x _⟩
  | andReg x y => exact ⟨_, exec_andReg x y s, .setReg_self s x _⟩
  | xorReg x y => exact ⟨_, exec_xorReg x y s, .setReg_self s x _⟩
  | addReg x y => exact ⟨_, exec_addReg x y s, .setReg_setFlag s x _ _⟩
  | subReg x y => exact ⟨_, exec_subReg x y s, .setReg_setFlag s x _ _⟩
  | shr x y => exact ⟨_, exec_shr x y s, .setReg_setFlag s x _ _⟩
  | subnReg x y => exact ⟨_, exec_subnReg x y s, .setReg_setFlag s x _ _⟩
  | shl x y => exact ⟨_, exec_shl x y s, .setReg_setFlag s x _ _⟩
  | ldI nnn => exact ⟨_, exec_ldI nnn s, .setI s _ rfl⟩
  | jpV0 nnn => exact ⟨_, exec_jpV0 nnn s, .setPc s _ rfl⟩
  | rnd x nn =>
    exact ⟨_, exec_rnd x nn s, (ChangesOnly.setDraws s _ rfl).trans (.setReg _ _ (List.mem_singleton_self x))⟩
  | drw x y n =>
    exact ⟨_, exec_drw x y n s, ((ChangesOnly.setDisplay s _ rfl).trans (.setDirty _ _ rfl)).trans
      (.setFlag _ _ (List.mem_singleton_self vF))⟩
  | skp x => exact ⟨_, exec_skp x s, .skipIf s _ rfl⟩
  | sknp x => exact ⟨_, exec_sknp x s, .skipIf s _ rfl⟩
  | ldFromDt x => exact ⟨_, exec_ldFromDt x s, .setReg_self s x _⟩
  | ldToDt x => exact ⟨_, exec_ldToDt x s, .setDt s _ rfl⟩
  | ldToSt x => exact ⟨_, exec_ldToSt x s, .setSt s _ rfl⟩
  | ldKey x =>
    refine ⟨_, exec_ldKey x s, ?_⟩
    cases s.chosenKey with
    | none => exact .setPc s _ rfl
    | some k => exact .setReg s _ (List.mem_singleton_self x)
  | addI x => exact ⟨_, exec_addI x s, (ChangesOnly.setI s _ rfl).trans (.setFlag _ _ (List.mem_singleton_self vF))⟩
  | ldFont x => exact ⟨_, exec_ldFont x s, .setI s _ rfl⟩
  | ldBcd x => exact ⟨_, exec_ldBcd x s, .storeData s _ rfl⟩
  | storeRegs x =>
    refine ⟨_, exec_storeRegs x s, .storeData s _ ?_⟩
    rw [List.length_map, regRange_length]
    rfl
  | loadRegs x => exact ⟨_, exec_loadRegs x s, .loadFold (regRange x) (fun _ hr => hr) s⟩

theorem exec_frame {i : Instr} {s t : State} (h : exec i s = .next t) : ChangesOnly (footprint i s) s t := by
  obtain ⟨u, hu, hframe⟩ := exec_answers_within_footprint i s
  obtain rfl := answer_unique hu h
  exact hframe

/-! ### When an instruction raises a fault (R230) -/

/-- An instruction leaves the fault record and the events, or it is a CALL on a full stack or a RET on an empty one, and
the answer is the entry of its fault. -/
theorem exec_quiet_or_faults {i : Instr} {s t : State} (h : exec i s = .next t) :
    (t.fault = s.fault ∧ t.events = s.events) ∨
    (∃ nnn, i = .call nnn ∧ s.sp = 16 ∧ t = s.raiseFault .stackOverflow (encode i)) ∨
    (i = .ret ∧ s.sp = 0 ∧ t = s.raiseFault .stackUnderflow (encode i)) := by
  cases i with
  | call nnn =>
    obtain ⟨hfree, rfl⟩ | ⟨hfull, rfl⟩ := exec_call_cases h
    · exact .inl ⟨rfl, rfl⟩
    · exact .inr (.inl ⟨nnn, rfl, hfull, rfl⟩)
  | ret =>
    obtain ⟨hoccupied, rfl⟩ | ⟨hempty, rfl⟩ := exec_ret_cases h
    · exact .inl ⟨rfl, rfl⟩
    · exact .inr (.inr ⟨rfl, hempty, rfl⟩)
  | _ => exact .inl ⟨(exec_frame h).fault rfl, (exec_frame h).events rfl⟩

/-! ### What an instruction does to the list that holds memory -/

@[simp] theorem State.loaded_mem (s : State) (x : Reg) : (s.loaded x).mem = s.mem := by
  obtain ⟨v, hv, -⟩ := loadFold_spec (regRange x) (regRange_nodup x) s
  rw [State.loaded, hv]

/-- An instruction keeps the list, or it stores a run of bytes. -/
theorem exec_mem_kept_or_stored {i : Instr} {s t : State} (h : exec i s = .next t) :
    t.mem = s.mem ∨ ∃ a bs, t = s.storeBytes a bs := by
  cases i with
  | ldBcd x => exact .inr ⟨_, _, answer_unique h (exec_ldBcd x s)⟩
  | storeRegs x => exact .inr ⟨_, _, answer_unique h (exec_storeRegs x s)⟩
  | call nnn => obtain ⟨hfree, rfl⟩ | ⟨hfull, rfl⟩ := exec_call_cases h <;> exact .inl rfl
  | ret => obtain ⟨hoccupied, rfl⟩ | ⟨hempty, rfl⟩ := exec_ret_cases h <;> exact .inl rfl
  | ldKey x =>
    obtain rfl := answer_unique (exec_ldKey x s) h
    cases s.chosenKey <;> exact .inl rfl
  | loadRegs x =>
    obtain rfl := answer_unique (exec_loadRegs x s) h
    exact .inl (s.loaded_mem x)
  | seByte | sneByte | seReg | sneReg | skp | sknp =>
    obtain rfl := Host.Outcome.next.inj h
    exact .inl (s.skipIf_mem _)
  | _ =>
    obtain rfl := Host.Outcome.next.inj h
    exact .inl rfl

/-- Every instruction keeps the canonical form of memory. -/
theorem exec_mem_wf {i : Instr} {s t : State} (h : exec i s = .next t) (hs : s.mem.wf s.font = true) :
    t.mem.wf t.font = true := by
  obtain hmem | ⟨a, bs, rfl⟩ := exec_mem_kept_or_stored h
  · rw [hmem, (exec_frame h).font]
    exact hs
  · rw [State.storeBytes_font]
    exact State.storeBytes_wf bs s a hs

/-! ### The obligation -/

/-- Settles O46: by cases on the instruction, from the frames of the operations its answer is made of. -/
theorem frameOfEveryInstruction : Obligations.FrameOfEveryInstruction := fun _ _ _ => exec_frame

end Sys2Proof.Machine
end

section
/-! SUPPORT. The call stack, JP V0 and RND (41_control_flow.md; 42_register_alu.md section 4): the obligations
CallPushesReturnAddress, CallOnFullStackFaults, RetPopsReturnAddress, RetOnEmptyStackFaults, JpV0AddsRegisterZero and
RndMasksAFreeDraw. -/

namespace Sys2Proof.Machine

/-- Settles O10: the sum of a 12-bit address and a byte fits in 16 bits, so it is not reduced. -/
theorem jpV0AddsRegisterZero : Obligations.JpV0AddsRegisterZero := by
  intro nnn s
  have haddr := nnn.isLt
  have hbyte := (s.reg 0).isLt
  have hpc : (addrImm nnn + byteWord (s.reg 0)).toNat = nnn.toNat + (s.reg 0).toNat := by
    rw [BitVec.toNat_add, addrImm_toNat, byteWord_toNat]
    omega
  refine ⟨decodeWord_groupB nnn, s.setPc (addrImm nnn + byteWord (s.reg 0)), exec_jpV0 nnn s, hpc, ?bound,
    exec_frame (exec_jpV0 nnn s)⟩
  case bound => rw [State.setPc_pc, hpc]; omega

/-- Settles O8: the byte written is the draw AND nn, so a bit that is 0 in nn is 0 in Vx whatever the draw. -/
theorem rndMasksAFreeDraw : Obligations.RndMasksAFreeDraw := by
  intro x nn s
  refine ⟨decodeWord_groupC x nn, _, exec_rnd x nn s, State.setReg_reg_self _ x _, ?bits, ?zero, rfl,
    exec_frame (exec_rnd x nn s)⟩
  case bits =>
    intro k hk
    rw [State.setReg_reg_self, BitVec.getLsbD_and, hk, Bool.and_false]
  case zero =>
    rintro rfl
    rw [State.setReg_reg_self]
    exact BitVec.and_zero

/-- Settles O13: the push writes the slot at sp and no other. -/
theorem callPushesReturnAddress : Obligations.CallPushesReturnAddress := by
  intro nnn s h
  refine ⟨decodeWord_group2 nnn, s.called nnn h, exec_call_of_free nnn s h, rfl, ?pushed, ?others, addrImm_toNat nnn,
    ChangesOnly.called s nnn h rfl rfl⟩
  case pushed => exact Vector.getElem_set_self h
  case others =>
    intro j hj hne
    exact Vector.getElem_set_ne h hj hne.symm

/-- Settles O14: with no free slot the push answers nothing, and the answer is the entry of StackOverflow. -/
theorem callOnFullStackFaults : Obligations.CallOnFullStackFaults := fun nnn s h =>
  ⟨_, exec_call_of_full nnn s h, rfl, rfl, rfl, ChangesOnly.raiseFault s _ _ rfl rfl⟩

/-- Settles O15: the pop reads the slot under sp and leaves the slots as they were. -/
theorem retPopsReturnAddress : Obligations.RetPopsReturnAddress := by
  intro s h
  have hsp : (s.returned h).sp.val = s.sp.val - 1 := rfl
  refine ⟨decodeWord_ret, s.returned h, exec_ret_of_occupied s h, ?depth, ?popped, rfl,
    ChangesOnly.returned s h rfl rfl⟩
  case depth => omega
  case popped => exact Vector.getElem?_eq_getElem _

/-- Settles O16: with no occupied slot the pop answers nothing, and the answer is the entry of StackUnderflow. -/
theorem retOnEmptyStackFaults : Obligations.RetOnEmptyStackFaults := fun s h =>
  ⟨_, exec_ret_of_empty s h, rfl, rfl, rfl, ChangesOnly.raiseFault s _ _ rfl rfl⟩

end Sys2Proof.Machine
end

section
/-! SUPPORT. The address register and the memory operations (43_index_memory.md): the bytes at the data addresses after a
store from I, the registers after a load from I, and the obligations AddIFlagsPastFFF, LdBcdStoresDecimalDigits,
StoreRegsCopiesRange, LoadRegsCopiesRange and StoreThenLoadRestoresRegisters. -/

namespace Sys2Proof.Machine

/-- Each byte stored from I reads back at its data address. -/
theorem State.memRead_storeData (s : State) (bs : List Byte) (k : Nat) (hk : k < bs.length)
    (hl : bs.length ≤ Config.memSize) : (s.storeBytes (s.dataAddr 0) bs).memRead (s.dataAddr k) = bs[k] :=
  State.memRead_storeBytes_inside bs s (s.dataAddr 0) k hk hl

/-- Register k of the stored range reads back at data address k. -/
theorem State.memRead_storeRange (s : State) {k x : Reg} (h : k ≤ x) :
    (s.storeBytes (s.dataAddr 0) ((regRange x).map s.reg)).memRead (s.dataAddr k.val) = s.reg k := by
  have hlength : ((regRange x).map s.reg).length = x.val + 1 := by rw [List.length_map, regRange_length]
  have hk : k.val < ((regRange x).map s.reg).length := by rw [hlength]; exact Nat.lt_succ_of_le h
  have hfits : ((regRange x).map s.reg).length ≤ Config.memSize := by
    have := x.isLt
    simp only [hlength, Config.memSize]
    omega
  rw [s.memRead_storeData _ k.val hk hfits, List.getElem_map, regRange_getElem]

/-- Register k of the loaded range takes the byte at data address k. -/
theorem State.loaded_reg (s : State) {k x : Reg} (h : k ≤ x) :
    (s.loaded x).reg k = s.memRead (s.dataAddr k.val) := by
  obtain ⟨v, hv, hreg⟩ := loadFold_spec (regRange x) (regRange_nodup x) s
  have hk : k ∈ regRange x := mem_regRange.mpr h
  have hregs : (s.loaded x).v = v := congrArg State.v hv
  rw [State.reg, hregs, hreg k, if_pos hk]

/-- Settles O19: I takes the 16-bit sum; the flag is computed from the old operands and written behind it. -/
theorem addIFlagsPastFFF : Obligations.AddIFlagsPastFFF := by
  intro x s
  refine ⟨decodeWord_addI x, _, exec_addI x s, ?sum, ?flag, exec_frame (exec_addI x s)⟩
  case sum => rw [State.setFlag_i, State.setI_i, BitVec.toNat_add, byteWord_toNat]
  case flag => rw [State.setFlag_reg_vF, flagByte_toNat_of_iff (pastAddrFlag_iff _ _)]

/-- Settles O21: the three bytes stored are the decimal digits of Vx. -/
theorem ldBcdStoresDecimalDigits : Obligations.LdBcdStoresDecimalDigits := by
  intro x s
  have hdigits := bcdDigits_toNat (s.reg x)
  simp only [bcdDigits, List.map_cons, List.map_nil, List.cons.injEq, and_true] at hdigits
  obtain ⟨hhundreds, htens, hunits⟩ := hdigits
  have hfits : (bcdDigits (s.reg x)).length ≤ Config.memSize := by show 3 ≤ 4096; decide
  have hbyte : ∀ k (hk : k < 3), (s.storeBytes (s.dataAddr 0) (bcdDigits (s.reg x))).memRead (s.dataAddr k) =
      (bcdDigits (s.reg x))[k] := fun k hk => s.memRead_storeData (bcdDigits (s.reg x)) k hk hfits
  refine ⟨decodeWord_ldBcd x, _, exec_ldBcd x s, ?hundreds, ?tens, ?units, exec_frame (exec_ldBcd x s)⟩
  case hundreds => rw [hbyte 0 (by decide)]; exact hhundreds
  case tens => rw [hbyte 1 (by decide)]; exact htens
  case units => rw [hbyte 2 (by decide)]; exact hunits

/-- Settles O22: a range of at most sixteen bytes does not overlap itself, so each byte stored reads back. -/
theorem storeRegsCopiesRange : Obligations.StoreRegsCopiesRange := fun x s =>
  ⟨decodeWord_storeRegs x, _, exec_storeRegs x s, fun _ hk => s.memRead_storeRange hk, exec_frame (exec_storeRegs x s)⟩

/-- Settles O23: the loads read the memory and the I of the old state, which no load changes. -/
theorem loadRegsCopiesRange : Obligations.LoadRegsCopiesRange := fun x s =>
  ⟨decodeWord_loadRegs x, _, exec_loadRegs x s, fun _ hk => s.loaded_reg hk, exec_frame (exec_loadRegs x s)⟩

/-- Settles O24: the store leaves I, so the load reads each register at the address it was stored to. -/
theorem storeThenLoadRestoresRegisters : Obligations.StoreThenLoadRestoresRegisters := by
  intro x s
  refine ⟨_, exec_storeRegs x s, fun u hmem hi => ⟨_, exec_loadRegs x u, fun k hk => ?_⟩⟩
  have haddr : u.dataAddr k.val = s.dataAddr k.val := by
    rw [State.dataAddr_eq, hi, State.storeBytes_i, State.dataAddr_eq]
  rw [u.loaded_reg hk, hmem, haddr, s.memRead_storeRange hk]

end Sys2Proof.Machine
end

section
/-! SUPPORT. The display operations (44_display.md): the drawn canvas against the closed form of the sprite's hits, the states
that hit alike, and the obligations ClsClearsDisplay, DrwXorsClippedSprite and DrwTwiceRestoresDisplay. -/

namespace Sys2Proof.Machine

/-- The pixel loop of DXYN draws the points that `drawHits` names (R191, R192). -/
theorem State.drawn_draws (s : State) (x y : Reg) (n : Nibble) :
    Draws (s.drawHits x y n) ⟨s.display, false, false⟩ (s.drawn x y n) :=
  (Canvas.plotRows_draws (s.reg x).toNat (s.spriteRows n) ⟨s.display, false, false⟩ (s.reg y).toNat).congr
    fun px py => s.spriteHits_spriteRows x y n px.val py.val

theorem flagByte_eq_one_iff {c : Bool} : flagByte c = 1 ↔ c = true := by
  cases c <;> decide

theorem flagByte_eq_zero_or_one (c : Bool) : flagByte c = 0 ∨ flagByte c = 1 := by
  cases c
  · exact .inl rfl
  · exact .inr rfl

/-- Outside the bytes of a footprint with none, every address reads as before. -/
theorem ChangesOnly.memRead_eq {f : Footprint} {s t : State} (h : ChangesOnly f s t) (hf : f.bytes = []) (a : Nat) :
    t.memRead a = s.memRead a := by
  have hkept : maskAddr a ∉ f.bytes := by rw [hf]; exact List.not_mem_nil
  rw [← t.memRead_mask, ← s.memRead_mask]
  exact h.memory (maskAddr a) (maskAddr_lt a) hkept

/-- Which points a sprite hits depends on Vx, Vy, I and memory alone. -/
theorem State.drawHits_congr {s t : State} {x y : Reg} {n : Nibble} (hx : t.reg x = s.reg x) (hy : t.reg y = s.reg y)
    (hi : t.i = s.i) (hmem : ∀ a, t.memRead a = s.memRead a) (px py : Nat) :
    t.drawHits x y n px py = s.drawHits x y n px py := by
  simp only [State.drawHits, hx, hy, hi, hmem]

/-- Settles O25: the blank grid has no lit pixel, and dirty is set by any that was lit. -/
theorem clsClearsDisplay : Obligations.ClsClearsDisplay := by
  intro s
  refine ⟨decodeWord_cls, _, exec_cls s, blankGrid_pixel, ?dirty, exec_frame (exec_cls s)⟩
  case dirty => rw [State.setDirty_dirty, Bool.or_eq_true, Grid.anyLit_iff]

/-- Settles O26: the canvas drawn from a fresh one has the pixels, the collision and the change of the closed form. -/
theorem drwXorsClippedSprite : Obligations.DrwXorsClippedSprite := by
  intro x y n s
  obtain ⟨hpixel, hcollided, hchanged⟩ := s.drawn_draws x y n
  simp only [Bool.false_eq_true, false_or] at hcollided hchanged
  refine ⟨decodeWord_groupD x y n, _, exec_drw x y n s, hpixel, ?flag, ?collision, ?dirty, exec_frame (exec_drw x y n s)⟩
  case flag => rw [State.setFlag_reg_vF]; exact flagByte_eq_zero_or_one _
  case collision => rw [State.setFlag_reg_vF, flagByte_eq_one_iff, hcollided]
  case dirty => rw [State.setFlag_dirty, State.setDirty_dirty, Bool.or_eq_true, hchanged]

/-- Settles O27: the first DRW keeps all that places the sprite, so the second hits the same points; a point hit twice is
as it was, and the second DRW meets it lit exactly where it was unset. -/
theorem drwTwiceRestoresDisplay : Obligations.DrwTwiceRestoresDisplay := by
  intro x y n s hx hy
  obtain ⟨-, t, ht, hpixel, -, -, -, hframe⟩ := drwXorsClippedSprite x y n s
  obtain ⟨-, u, hu, hpixel', -, hflag, -, -⟩ := drwXorsClippedSprite x y n t
  have hits : ∀ px py, t.drawHits x y n px py = s.drawHits x y n px py :=
    State.drawHits_congr (hframe.regs x (by simpa using hx)) (hframe.regs y (by simpa using hy)) (hframe.i rfl)
      (hframe.memRead_eq rfl)
  refine ⟨t, u, ht, hu, ?restored, ?flag⟩
  case restored =>
    refine Grid.ext_pixel fun px py => ?_
    rw [hpixel', hits, hpixel, Bool.xor_assoc, Bool.xor_self, Bool.xor_false]
  case flag =>
    refine hflag.trans (exists_congr fun px => exists_congr fun py => ?_)
    rw [hits, hpixel]
    refine and_congr_right fun hhit => ?_
    rw [hhit, Bool.xor_true, Bool.not_eq_true']

end Sys2Proof.Machine
end

section
/-! SUPPORT. The keypad and the timer writes (45_keypad_timers.md): the skips as a condition on K, and the obligations
SkipOnKey, LdKeyTakesLowestOrParks and TimerWritesCopyVx. -/

namespace Sys2Proof.Machine

theorem State.pressed_eq_decide (s : State) (b : Byte) :
    s.pressed b = decide (∃ k : Key, k.val = b.toNat ∧ s.keys[k] = true) := by
  rw [Bool.eq_iff_iff, s.pressed_iff, decide_eq_true_iff]

theorem exec_ldKey_of_chosen (x : Reg) {s : State} {k : Key} (h : s.chosenKey = some k) :
    exec (.ldKey x) s = .next (s.setReg x (BitVec.ofNat 8 k.val)) := by
  rw [exec_ldKey, h]
  rfl

theorem exec_ldKey_of_no_key (x : Reg) {s : State} (h : ∀ k : Key, s.keys[k] = false) :
    exec (.ldKey x) s = .next s.rewind := by
  rw [exec_ldKey, s.chosenKey_eq_none.mpr h]
  rfl

/-- Settles O28: the condition is membership of the whole byte in K for SKP and its negation for SKNP. -/
theorem skipOnKey : Obligations.SkipOnKey := by
  intro x s
  constructor
  case left =>
    refine ⟨decodeWord_skp x, answer_of_skipIf ?_⟩
    rw [exec_skp, State.pressed_eq_decide]
  case right =>
    refine ⟨decodeWord_sknp x, answer_of_skipIf_not ?_⟩
    rw [exec_sknp, State.pressed_eq_decide, decide_not]

/-- Settles O29: the key chosen is the lowest pressed, and none is chosen exactly when K is empty. -/
theorem ldKeyTakesLowestOrParks : Obligations.LdKeyTakesLowestOrParks := by
  intro x s
  refine ⟨decodeWord_ldKey x, fun k hpressed hlowest => ?_, fun hnone => ?_⟩
  · have hcode : (BitVec.ofNat 8 k.val).toNat = k.val := by
      rw [BitVec.toNat_ofNat]
      omega
    have hchosen : s.chosenKey = some k := (s.chosenKey_eq_some k).mpr ⟨hpressed, hlowest⟩
    exact answer_of_setReg (·.toNat = k.val) (exec_ldKey_of_chosen x hchosen) hcode
  · exact ⟨s.rewind, exec_ldKey_of_no_key x hnone, rfl, ChangesOnly.setPc s _ rfl⟩

/-- Settles O32: each timer takes Vx, and a write of a timer changes that timer alone. -/
theorem timerWritesCopyVx : Obligations.TimerWritesCopyVx := fun x s =>
  ⟨⟨decodeWord_ldToDt x, _, exec_ldToDt x s, rfl, exec_frame (exec_ldToDt x s)⟩,
    ⟨decodeWord_ldToSt x, _, exec_ldToSt x s, rfl, exec_frame (exec_ldToSt x s)⟩⟩

end Sys2Proof.Machine
end

section
/-! SUPPORT. Memory accesses and the fetch (20_memory.md sections 2 to 4): the obligations ReadAfterWriteInMaskedMemory,
FetchIsBigEndianAndMasked and StoredWordIsFetchedNext. -/

namespace Sys2Proof.Machine

/-- Settles O39: an appended pair of bytes is 256 times the first plus the second. -/
theorem fetchIsBigEndianAndMasked : Obligations.FetchIsBigEndianAndMasked := by
  intro s
  calc s.fetchWord.toNat
      = (s.memRead s.pc.toNat).toNat * 256 + (s.memRead (s.pc.toNat + 1)).toNat := toNat_append_add _ _
    _ = 256 * (s.memRead s.pc.toNat).toNat + (s.memRead (s.pc.toNat + 1)).toNat := by rw [Nat.mul_comm]

/-- Settles O51: a write is seen at the addresses that mask alike and at no other, and keeps the canonical form. -/
theorem readAfterWriteInMaskedMemory : Obligations.ReadAfterWriteInMaskedMemory := by
  intro s a a' b
  refine ⟨?read, s.memWrite_wf a b⟩
  case read =>
    split
    case isTrue h => exact s.memRead_memWrite_same b h
    case isFalse h => exact s.memRead_memWrite_ne b h

/-- Settles O52: the two bytes stored read back, and the store leaves pc. -/
theorem storedWordIsFetchedNext : Obligations.StoredWordIsFetchedNext := by
  intro s w
  have hfits : (wordBytes w).length ≤ Config.memSize := by show 2 ≤ 4096; decide
  have hhigh := State.memRead_storeBytes_inside (wordBytes w) s s.pc.toNat 0 Nat.zero_lt_two hfits
  have hlow := State.memRead_storeBytes_inside (wordBytes w) s s.pc.toNat 1 Nat.one_lt_two hfits
  rw [Nat.add_zero] at hhigh
  rw [State.fetchWord, State.storeBytes_pc, hhigh, hlow]
  exact highByte_append_lowByte w

end Sys2Proof.Machine
end

section
/-! SUPPORT. The Step (40_sequencer.md; 60_exceptions.md section 1): what a Step does in each of its cases, and the obligations
about it: StepRunsDecodedInstruction, PausedOrHaltedStepHasNoEffect, StepAlwaysAnswersNext, InvalidWordFaults,
FaultingStepCommitsNothing, PcAfterStepFollowsTable, StepEmitsAtMostAFaultReport, ParkedStepChangesNothing and
CallThenRetReturnsBehindCall. -/

namespace Sys2Proof.Machine

/-! ### The advance of pc and a fault taken behind it (R102, R104, R232) -/

theorem word_add_two_sub_two (w : Word) : w + 2 - 2 = w := BitVec.add_sub_cancel w 2

theorem word_add_two_add_two (w : Word) : w + 2 + 2 = w + 4 := BitVec.add_assoc w 2 2

/-- Going back from the advanced pc undoes the advance (R104, R213). -/
theorem State.advance_rewind (s : State) : s.advance.rewind = s := by
  show s.setPc (s.pc + 2 - 2) = s
  rw [word_add_two_sub_two]
  rfl

/-- The state s with the fault taken: the record names the pc of s, the report is emitted, and nothing else changes. -/
def State.faulted (s : State) (code : FaultCode) (w : Word) : State :=
  (s.setFault (some ⟨code, w, s.pc⟩)).emit (.faultReport code w s.pc)

/-- A fault taken behind the advance undoes it. -/
theorem State.advance_raiseFault (s : State) (code : FaultCode) (w : Word) :
    s.advance.raiseFault code w = s.faulted code w := by
  rw [State.raiseFault, s.advance_rewind]
  rfl

theorem ChangesOnly.faulted (s : State) (code : FaultCode) (w : Word) :
    ChangesOnly { record := true } s (s.faulted code w) := by
  constructor
  case fault | events => intro h; cases h
  all_goals intros; rfl

/-! ### The cases of a Step (R100 to R104) -/

theorem step_of_halted {s : State} (h : s.fault ≠ none) : step s = .next s := by
  have hsome : s.fault.isSome = true := Option.isSome_iff_ne_none.mpr h
  rw [step, runStep, if_pos hsome, ite_self]

theorem step_of_running {s : State} (h : s.Running) : step s = fetchExecute s := by
  obtain ⟨hpaused, hfault⟩ := h
  rw [step, runStep, hpaused, hfault]
  rfl

theorem step_of_decoded {s : State} {i : Instr} (h : s.Running) (hi : decodeWord s.fetchWord = some i) :
    step s = exec i s.advance := by
  rw [step_of_running h, fetchExecute, hi]

theorem step_of_invalid {s : State} (h : s.Running) (hnone : decodeWord s.fetchWord = none) :
    step s = .next (s.faulted .invalidInstruction s.fetchWord) := by
  rw [step_of_running h, fetchExecute, hnone, ← s.advance_raiseFault]

theorem step_of_not_running {s : State} (h : ¬ s.Running) : step s = .next s := by
  by_cases hpaused : s.paused = true
  · exact step_of_paused hpaused
  · exact step_of_halted fun hfault => h ⟨Bool.eq_false_of_not_eq_true hpaused, hfault⟩

/-- Everything a Step can do: nothing, the entry of InvalidInstruction, or the operation its word decodes to. -/
theorem step_cases {s t : State} (h : step s = .next t) :
    (¬ s.Running ∧ t = s) ∨
    (s.Running ∧ decodeWord s.fetchWord = none ∧ t = s.faulted .invalidInstruction s.fetchWord) ∨
    (s.Running ∧ ∃ i, decodeWord s.fetchWord = some i ∧ exec i s.advance = .next t) := by
  by_cases hrunning : s.Running
  · cases hdecode : decodeWord s.fetchWord with
    | none => exact .inr (.inl ⟨hrunning, rfl, answer_unique h (step_of_invalid hrunning hdecode)⟩)
    | some i => exact .inr (.inr ⟨hrunning, i, rfl, (step_of_decoded hrunning hdecode).symm.trans h⟩)
  · exact .inl ⟨hrunning, answer_unique h (step_of_not_running hrunning)⟩

/-- The cause of each fault, in a state that still is as it was when the word w was fetched (R230). -/
def State.FaultCause (s : State) (code : FaultCode) (w : Word) : Prop :=
  match code with
  | .invalidInstruction => decodeWord w = none
  | .stackOverflow => s.sp = 16 ∧ ∃ nnn, decodeWord w = some (.call nnn)
  | .stackUnderflow => s.sp = 0 ∧ decodeWord w = some .ret

/-- A Step of a running CORE raises no fault and emits nothing, or it takes a fault on the fetched word, whose cause
holds. -/
theorem step_quiet_or_faults {s t : State} (hs : s.Running) (h : step s = .next t) :
    (t.fault = none ∧ t.events = s.events) ∨
    ∃ code, s.FaultCause code s.fetchWord ∧ t = s.faulted code s.fetchWord := by
  obtain ⟨hnot, -⟩ | ⟨-, hdecode, ht⟩ | ⟨-, i, hdecode, hexec⟩ := step_cases h
  · exact absurd hs hnot
  · exact .inr ⟨.invalidInstruction, hdecode, ht⟩
  · have hword : encode i = s.fetchWord := encode_of_decodeWord hdecode
    obtain ⟨hfault, hevents⟩ | ⟨nnn, rfl, hfull, ht⟩ | ⟨rfl, hempty, ht⟩ := exec_quiet_or_faults hexec
    · exact .inl ⟨hfault.trans hs.2, hevents⟩
    · exact .inr ⟨.stackOverflow, ⟨hfull, nnn, hdecode⟩, by rw [ht, s.advance_raiseFault, hword]⟩
    · exact .inr ⟨.stackUnderflow, ⟨hempty, hdecode⟩, by rw [ht, s.advance_raiseFault, hword]⟩

/-! ### The pc after a Step (R108) -/

/-- A conditional skip behind the advance leaves pc four past the word where its condition holds, else two. -/
theorem pc_of_skipIf_advance {o : Result} {s t : State} {p : Prop} [Decidable p]
    (ho : o = .next (s.advance.skipIf (decide p))) (h : o = .next t) : t.pc = if p then s.pc + 4 else s.pc + 2 := by
  obtain ⟨u, hu, hpc, -⟩ := answer_of_skipIf ho
  obtain rfl := answer_unique hu h
  rw [hpc, State.advance_pc, word_add_two_add_two]

/-- The same for a skip on the condition's failure. -/
theorem pc_of_skipIf_not_advance {o : Result} {s t : State} {p : Prop} [Decidable p]
    (ho : o = .next (s.advance.skipIf (decide (¬ p)))) (h : o = .next t) :
    t.pc = if p then s.pc + 2 else s.pc + 4 := by
  simpa only [ite_not] using pc_of_skipIf_advance ho h

/-- The pc that an instruction leaves behind the advance is its entry in the table of R108. -/
theorem exec_advance_pc {i : Instr} {s t : State} (h : exec i s.advance = .next t) : t.pc = pcAfter i s := by
  cases i with
  | jp nnn => obtain rfl := answer_unique (exec_jp nnn _) h; rfl
  | jpV0 nnn => obtain rfl := answer_unique (exec_jpV0 nnn _) h; rfl
  | call nnn =>
    obtain ⟨hfree, rfl⟩ | ⟨hfull, rfl⟩ := exec_call_cases h
    · exact (if_pos hfree).symm
    · have hnot : ¬ s.sp.val < 16 := by rw [← State.advance_sp, hfull]; decide
      exact (word_add_two_sub_two s.pc).trans (if_neg hnot).symm
  | ret =>
    obtain ⟨hoccupied, rfl⟩ | ⟨hempty, rfl⟩ := exec_ret_cases h
    · have hpos : 0 < s.sp.val := hoccupied
      rw [pcAfter, dif_pos hpos]
      rfl
    · have hnot : ¬ 0 < s.sp.val := by rw [← State.advance_sp, hempty]; decide
      rw [pcAfter, dif_neg hnot, State.raiseFault_pc, State.advance_pc, word_add_two_sub_two]
  | seByte x nn => exact pc_of_skipIf_advance (exec_seByte x nn s.advance) h
  | sneByte x nn => exact pc_of_skipIf_not_advance (exec_sneByte x nn s.advance) h
  | seReg x y => exact pc_of_skipIf_advance (exec_seReg x y s.advance) h
  | sneReg x y => exact pc_of_skipIf_not_advance (exec_sneReg x y s.advance) h
  | skp x =>
    refine pc_of_skipIf_advance (p := s.pressed (s.reg x) = true) ?_ h
    rw [Bool.decide_eq_true]
    exact exec_skp x s.advance
  | sknp x =>
    refine pc_of_skipIf_not_advance (p := s.pressed (s.reg x) = true) ?_ h
    rw [decide_not, Bool.decide_eq_true]
    exact exec_sknp x s.advance
  | ldKey x =>
    by_cases hsome : ∃ k : Key, s.keys[k] = true
    · obtain ⟨k, hk⟩ : ∃ k, s.advance.chosenKey = some k := by
        rw [← Option.ne_none_iff_exists', ne_eq, State.chosenKey_eq_none]
        obtain ⟨k, hk⟩ := hsome
        exact fun hnone => Bool.false_ne_true ((hnone k).symm.trans hk)
      obtain rfl := answer_unique (exec_ldKey_of_chosen x hk) h
      exact (if_pos hsome).symm
    · have hnone : ∀ k : Key, s.advance.keys[k] = false := fun k =>
        Bool.eq_false_of_not_eq_true fun hk => hsome ⟨k, hk⟩
      obtain rfl := answer_unique (exec_ldKey_of_no_key x hnone) h
      exact (word_add_two_sub_two s.pc).trans (if_neg hsome).symm
  | _ => exact (exec_frame h).pc rfl

/-! ### The obligations -/

/-- Settles O38: past the gates the fetched word decodes, and its operation runs behind the advance of pc. -/
theorem stepRunsDecodedInstruction : Obligations.StepRunsDecodedInstruction := fun s _ hs hi =>
  ⟨step_of_decoded hs hi, BitVec.toNat_add s.pc 2, ChangesOnly.setPc s _ rfl⟩

/-- Settles O42: each gate answers the state itself. -/
theorem pausedOrHaltedStepHasNoEffect : Obligations.PausedOrHaltedStepHasNoEffect := fun _ h =>
  h.elim step_of_paused step_of_halted

/-- Settles O43: no gate stops the machine, an invalid word gives the entry of its fault, and every instruction answers. -/
theorem stepAlwaysAnswersNext : Obligations.StepAlwaysAnswersNext := by
  intro s
  by_cases hrunning : s.Running
  · cases hdecode : decodeWord s.fetchWord with
    | none => exact ⟨_, step_of_invalid hrunning hdecode⟩
    | some i =>
      obtain ⟨t, ht, -⟩ := exec_answers_within_footprint i s.advance
      exact ⟨t, (step_of_decoded hrunning hdecode).trans ht⟩
  · exact ⟨s, step_of_not_running hrunning⟩

/-- Settles O40: the fault is taken behind the advance, which it undoes. -/
theorem invalidWordFaults : Obligations.InvalidWordFaults := fun s hs hnone =>
  ⟨_, step_of_invalid hs hnone, rfl, rfl, ChangesOnly.faulted s _ _⟩

/-- Settles O41: a Step that leaves a fault record took its fault behind the advance, which undoes it. -/
theorem faultingStepCommitsNothing : Obligations.FaultingStepCommitsNothing := by
  intro s t r hs hstep hr
  obtain ⟨hnone, -⟩ | ⟨code, -, rfl⟩ := step_quiet_or_faults hs hstep
  · exact absurd (hr.symm.trans hnone) (Option.some_ne_none r)
  · obtain rfl := Option.some.inj hr
    exact ⟨rfl, rfl, rfl, ChangesOnly.faulted s _ _⟩

/-- Settles O44: by cases on the instruction; one whose footprint leaves pc keeps the advanced one. -/
theorem pcAfterStepFollowsTable : Obligations.PcAfterStepFollowsTable := fun _ _ _ hs hi hstep =>
  exec_advance_pc ((step_of_decoded hs hi).symm.trans hstep)

/-- Settles O45: a Step is quiet or takes one fault, and neither a fault nor an instruction has K or paused in its
frame. -/
theorem stepEmitsAtMostAFaultReport : Obligations.StepEmitsAtMostAFaultReport := by
  intro s t h
  constructor
  case left =>
    by_cases hrunning : s.Running
    · obtain ⟨-, hevents⟩ | ⟨code, -, rfl⟩ := step_quiet_or_faults hrunning h
      · exact .inl hevents
      · exact .inr ⟨code, s.fetchWord, s.pc, rfl⟩
    · obtain rfl := answer_unique (step_of_not_running hrunning) h
      exact .inl rfl
  case right =>
    obtain ⟨-, rfl⟩ | ⟨-, -, rfl⟩ | ⟨-, i, -, hexec⟩ := step_cases h
    · exact ⟨rfl, rfl⟩
    · exact ⟨rfl, rfl⟩
    · exact ⟨(exec_frame hexec).keys, (exec_frame hexec).paused⟩

/-- Settles O30: with K empty the operation moves pc back over the advance. -/
theorem parkedStepChangesNothing : Obligations.ParkedStepChangesNothing := by
  intro s x hs hi hnone
  have hnone' : ∀ k : Key, s.advance.keys[k] = false := hnone
  rw [step_of_decoded hs hi, exec_ldKey_of_no_key x hnone', s.advance_rewind]

/-- Settles O17: the RET pops the slot that the CALL pushed, which holds the advanced pc. -/
theorem callThenRetReturnsBehindCall : Obligations.CallThenRetReturnsBehindCall := by
  intro s nnn hs hfree hcall
  refine ⟨s.advance.called nnn hfree, (step_of_decoded hs hcall).trans (exec_call_of_free nnn s.advance hfree),
    fun hret => ?_⟩
  have hrunning : (s.advance.called nnn hfree).Running := hs
  have hdecode : decodeWord (s.advance.called nnn hfree).fetchWord = some .ret := hret ▸ decodeWord_ret
  have hoccupied : 0 < (s.advance.called nnn hfree).advance.sp.val := Nat.succ_pos s.sp.val
  refine ⟨_, (step_of_decoded hrunning hdecode).trans (exec_ret_of_occupied _ hoccupied), ?pc, ?depth⟩
  case pc => exact Vector.getElem_set_self hfree
  case depth => exact Fin.ext (Nat.add_sub_cancel s.sp.val 1)

end Sys2Proof.Machine
end

section
/-! SUPPORT. Reset, Tick, the keys and the loads (60_exceptions.md sections 3 and 4; 70_reset_and_hazards.md): the obligations
ResetStateHasSpecValues, HostResetRestoresAllButPaused, TickRunsItsThreeParts, KeysFollowTheHost and
BulkLoadCopiesAllOrNothing. -/

namespace Sys2Proof.Machine

/-! ### Reset -/

theorem State.construct_memRead_font (font : Font) (g : Config.Generator) {a : Nat} (h : a < Config.fontSize) :
    (State.construct font g).memRead a = font[a] := by
  have hmem : a < Config.memSize := Nat.lt_trans h (by decide)
  rw [State.construct_memRead font g hmem, dif_pos h]

theorem State.construct_memRead_above (font : Font) (g : Config.Generator) {a : Nat} (hlow : Config.fontSize ≤ a)
    (h : a < Config.memSize) : (State.construct font g).memRead a = 0 := by
  rw [State.construct_memRead font g h, dif_neg (Nat.not_lt.mpr hlow)]

theorem hostReset_memRead (s : State) (a : Nat) :
    (hostReset s).memRead a = (State.construct s.font s.generator).memRead a := rfl

/-- Settles O53: memory reads as FONT and then zeros, and every other piece is a constant of the construction. -/
theorem resetStateHasSpecValues : Obligations.ResetStateHasSpecValues := by
  refine ⟨rfl, fun font g => ⟨fun a h => State.construct_memRead_font font g h,
    fun a hlow h => State.construct_memRead_above font g hlow h, ?regs, rfl, rfl, ?slots, rfl, rfl, rfl, blankGrid_pixel,
    ?keys, rfl, rfl, rfl⟩⟩
  case regs => exact fun x => Vector.getElem_replicate x.isLt
  case slots => exact fun j hj => Vector.getElem_replicate hj
  case keys => exact fun k => Vector.getElem_replicate k.isLt

/-- Settles O54: Reset is the construction with the machine's own FONT and generator, but for paused, events and draws. -/
theorem hostResetRestoresAllButPaused : Obligations.HostResetRestoresAllButPaused := by
  intro s
  refine ⟨rfl, fun a h => ?font, fun a hlow h => ?zeros, rfl, rfl, rfl, rfl, rfl, rfl, rfl, rfl, rfl, rfl, rfl, rfl, rfl,
    rfl, rfl, rfl, rfl⟩
  case font => rw [hostReset_memRead, State.construct_memRead_font s.font s.generator h]
  case zeros => rw [hostReset_memRead, State.construct_memRead_above s.font s.generator hlow h]

/-! ### Tick -/

theorem byte_countDown_toNat (b : Byte) : (if b = 0 then 0 else b - 1).toNat = b.toNat - 1 := by
  split
  case isTrue h => rw [h]; rfl
  case isFalse h =>
    have hpos : b.toNat ≠ 0 := fun e => h (BitVec.eq_of_toNat_eq e)
    have hone : (1 : Byte).toNat = 1 := rfl
    rw [byte_sub_toNat, hone]
    omega

/-- Settles O55: a Tick is one update, of DT, ST, dirty and the events. -/
theorem tickRunsItsThreeParts : Obligations.TickRunsItsThreeParts := by
  intro s
  constructor
  case left => exact fun hpaused => congrArg Host.Outcome.next (tick_of_paused hpaused)
  case right =>
    intro hrunning
    exact ⟨_, congrArg Host.Outcome.next (tick_of_not_paused hrunning), byte_countDown_toNat s.dt,
      rfl, rfl, rfl, rfl, rfl, rfl, rfl, rfl, rfl, rfl, rfl, rfl, rfl, rfl, rfl, rfl⟩

/-! ### Keys -/

/-- KeyDown writes K alone. -/
theorem keyDown_eq_setKeys (code : Nat) (s : State) : keyDown code s = s.setKeys (keyDown code s).keys := by
  unfold keyDown
  split <;> rfl

/-- KeyUp writes K alone. -/
theorem keyUp_eq_setKeys (code : Nat) (s : State) : keyUp code s = s.setKeys (keyUp code s).keys := by
  unfold keyUp
  split <;> rfl

theorem keyDown_of_no_code {code : Nat} (h : 16 ≤ code) (s : State) : keyDown code s = s :=
  dif_neg (Nat.not_lt.mpr h)

theorem keyUp_of_no_code {code : Nat} (h : 16 ≤ code) (s : State) : keyUp code s = s :=
  dif_neg (Nat.not_lt.mpr h)

/-- Settles O57: each writes K alone, and K at its code alone. -/
theorem keysFollowTheHost : Obligations.KeysFollowTheHost := by
  intro code s
  constructor
  case left =>
    exact ⟨_, rfl, keyDown_eq_setKeys code s, keyDown_keys code s, fun h => keyDown_of_no_code h s⟩
  case right =>
    exact ⟨_, rfl, keyUp_eq_setKeys code s, keyUp_keys code s, fun h => keyUp_of_no_code h s⟩

/-! ### Loads (R276, R277) -/

theorem loadFits_iff {offset : Nat} {bytes : List Byte} :
    loadFits offset bytes = true ↔ offset + bytes.length ≤ Config.memSize := by
  rw [loadFits, decide_eq_true_eq]

theorem bulkLoad_of_fits {offset : Nat} {bytes : List Byte} (h : offset + bytes.length ≤ Config.memSize) (s : State) :
    bulkLoad offset bytes s = s.storeBytes offset bytes :=
  if_pos (loadFits_iff.mpr h)

theorem bulkLoad_of_not_fits {offset : Nat} {bytes : List Byte} (h : ¬ offset + bytes.length ≤ Config.memSize)
    (s : State) : bulkLoad offset bytes s = s :=
  if_neg (mt loadFits_iff.mp h)

theorem bulkLoadReply_eq_ok_iff {offset : Nat} {bytes : List Byte} :
    bulkLoadReply offset bytes = .ok ↔ offset + bytes.length ≤ Config.memSize := by
  rw [bulkLoadReply, ← loadFits_iff]
  cases loadFits offset bytes <;> decide

theorem bulkLoadReply_eq_loadError_iff {offset : Nat} {bytes : List Byte} :
    bulkLoadReply offset bytes = .loadError ↔ ¬ offset + bytes.length ≤ Config.memSize := by
  rw [bulkLoadReply, ← loadFits_iff]
  cases loadFits offset bytes <;> decide

/-- A load that fits does not wrap, so an address of memory outside the range is no byte of it. -/
theorem State.memRead_storeBytes_of_fits (s : State) {offset a : Nat} {bytes : List Byte}
    (hfits : offset + bytes.length ≤ Config.memSize) (ha : a < Config.memSize)
    (houtside : a < offset ∨ offset + bytes.length ≤ a) : (s.storeBytes offset bytes).memRead a = s.memRead a := by
  refine State.memRead_storeBytes_outside bytes s offset fun k hk => ?_
  rw [maskAddr_of_lt ha, maskAddr_of_lt (by omega)]
  omega

/-- Settles O58: a load that fits stores its bytes without wrapping, and one that does not answers the state itself. -/
theorem bulkLoadCopiesAllOrNothing : Obligations.BulkLoadCopiesAllOrNothing := by
  intro offset bytes s
  refine ⟨fun hover => ?error, fun hfits => ?ok, rfl, ?rom⟩
  case error =>
    have hnot : ¬ offset + bytes.length ≤ Config.memSize := Nat.not_le.mpr hover
    exact ⟨bulkLoadReply_eq_loadError_iff.mpr hnot, congrArg Host.Outcome.next (bulkLoad_of_not_fits hnot s)⟩
  case ok =>
    refine ⟨bulkLoadReply_eq_ok_iff.mpr hfits, s.storeBytes offset bytes,
      congrArg Host.Outcome.next (bulkLoad_of_fits hfits s), State.storeBytes_eq_setMem bytes s offset, ?inside, ?outside⟩
    case inside =>
      exact fun k hk => State.memRead_storeBytes_inside bytes s offset k hk (Nat.le_of_add_left_le hfits)
    case outside => exact fun a ha houtside => s.memRead_storeBytes_of_fits hfits ha houtside
  case rom =>
    rw [loadRomReply, bulkLoadReply_eq_loadError_iff]
    simp only [Config.programBase, Config.memSize]
    omega

end Sys2Proof.Machine
end

section
/-! SUPPORT. What every host operation keeps (60_exceptions.md sections 1, 6 and 8): the induction over a run, the invariant
through each operation, and the obligations ResetHasInv, StepKeepsInv, HostOperationsKeepInv, FaultClearedOnlyByReset,
FontStaysTheParameter and MachineKeepsItsOwnGenerator. -/

namespace Sys2Proof.Machine

/-! ### Runs -/

/-- What every host operation keeps, every run keeps (R253). -/
theorem performAll_keeps {P : State → Prop} (hop : ∀ op s t, P s → perform op s = .next t → P t) :
    ∀ (ops : List HostOp) (s t : State), P s → performAll ops s = .next t → P t := by
  intro ops
  induction ops with
  | nil =>
    intro s t hs h
    obtain rfl := Host.Outcome.next.inj h
    exact hs
  | cons op ops ih =>
    intro s t hs h
    rw [performAll] at h
    cases hperform : perform op s with
    | next u => rw [hperform] at h; exact ih u t (hop op s u hs hperform) h
    | fault r => rw [hperform] at h; cases h
    | refused r => rw [hperform] at h; cases h

/-! ### The parameters of the machine and its draws through a Step -/

theorem step_font {s t : State} (h : step s = .next t) : t.font = s.font := by
  obtain ⟨-, rfl⟩ | ⟨-, -, rfl⟩ | ⟨-, i, -, hexec⟩ := step_cases h
  · rfl
  · rfl
  · exact (exec_frame hexec).font

theorem step_generator {s t : State} (h : step s = .next t) : t.generator = s.generator := by
  obtain ⟨-, rfl⟩ | ⟨-, -, rfl⟩ | ⟨-, i, -, hexec⟩ := step_cases h
  · rfl
  · rfl
  · exact (exec_frame hexec).generator

/-- Only RND takes a draw, and it takes one. -/
theorem exec_draws {i : Instr} {s t : State} (h : exec i s = .next t) : t.draws = s.draws ∨ t.draws = s.draws + 1 := by
  cases i with
  | rnd x nn =>
    obtain rfl := answer_unique (exec_rnd x nn s) h
    exact .inr rfl
  | _ => exact .inl ((exec_frame h).draws rfl)

theorem step_draws {s t : State} (h : step s = .next t) : t.draws = s.draws ∨ t.draws = s.draws + 1 := by
  obtain ⟨-, rfl⟩ | ⟨-, -, rfl⟩ | ⟨-, i, -, hexec⟩ := step_cases h
  · exact .inl rfl
  · exact .inl rfl
  · have hdraws := exec_draws hexec
    exact hdraws

/-! ### Tick and the other operations of the host -/

/-- t has the fault record of s and the state it speaks of, pc and sp, and the machine's own fields FONT, generator and
draws. -/
structure SameMachine (s t : State) : Prop where
  fault : t.fault = s.fault
  pc : t.pc = s.pc
  sp : t.sp = s.sp
  font : t.font = s.font
  generator : t.generator = s.generator
  draws : t.draws = s.draws

theorem SameMachine.tick (s : State) : SameMachine s (tick s) := by
  by_cases hpaused : s.paused = true
  · rw [tick_of_paused hpaused]
    constructor <;> rfl
  · rw [tick_of_not_paused (Bool.eq_false_of_not_eq_true hpaused)]
    constructor <;> rfl

theorem SameMachine.keyDown (code : Nat) (s : State) : SameMachine s (keyDown code s) := by
  rw [keyDown_eq_setKeys]
  constructor <;> rfl

theorem SameMachine.keyUp (code : Nat) (s : State) : SameMachine s (keyUp code s) := by
  rw [keyUp_eq_setKeys]
  constructor <;> rfl

theorem SameMachine.bulkLoad (offset : Nat) (bytes : List Byte) (s : State) :
    SameMachine s (bulkLoad offset bytes s) := by
  rw [bulkLoad_eq_setMem]
  constructor <;> rfl

/-- Every host operation is a Step, a Reset, or one that leaves the fault record, pc, sp and the machine's own fields. -/
theorem perform_cases {op : HostOp} {s t : State} (h : perform op s = .next t) :
    (op = .step ∧ step s = .next t) ∨ (op = .reset ∧ t = hostReset s) ∨ SameMachine s t := by
  cases op with
  | step => exact .inl ⟨rfl, h⟩
  | reset => exact .inr (.inl ⟨rfl, (Host.Outcome.next.inj h).symm⟩)
  | tick => exact .inr (.inr (Host.Outcome.next.inj h ▸ SameMachine.tick s))
  | keyDown code => exact .inr (.inr (Host.Outcome.next.inj h ▸ SameMachine.keyDown code s))
  | keyUp code => exact .inr (.inr (Host.Outcome.next.inj h ▸ SameMachine.keyUp code s))
  | bulkLoad offset bytes => exact .inr (.inr (Host.Outcome.next.inj h ▸ SameMachine.bulkLoad offset bytes s))
  | loadRom bytes => exact .inr (.inr (Host.Outcome.next.inj h ▸ SameMachine.bulkLoad _ bytes s))
  | pause | resume | snapshot =>
    obtain rfl := Host.Outcome.next.inj h
    exact .inr (.inr ⟨rfl, rfl, rfl, rfl, rfl, rfl⟩)

theorem perform_font {op : HostOp} {s t : State} (h : perform op s = .next t) : t.font = s.font := by
  obtain ⟨-, hstep⟩ | ⟨-, rfl⟩ | hsame := perform_cases h
  · exact step_font hstep
  · rfl
  · exact hsame.font

theorem perform_generator {op : HostOp} {s t : State} (h : perform op s = .next t) : t.generator = s.generator := by
  obtain ⟨-, hstep⟩ | ⟨-, rfl⟩ | hsame := perform_cases h
  · exact step_generator hstep
  · rfl
  · exact hsame.generator

theorem perform_draws {op : HostOp} {s t : State} (h : perform op s = .next t) :
    t.draws = s.draws ∨ op = .step ∧ t.draws = s.draws + 1 := by
  obtain ⟨rfl, hstep⟩ | ⟨-, rfl⟩ | hsame := perform_cases h
  · exact (step_draws hstep).imp_right fun hone => ⟨rfl, hone⟩
  · exact .inl rfl
  · exact .inl hsame.draws

/-! ### The invariant -/

/-- An operation that leaves the fault record, pc and sp, and forgets no event, keeps the record's agreement. -/
theorem State.FaultAgrees.of_same {s t : State} (hs : s.FaultAgrees) (hsame : SameMachine s t)
    (hevents : ∀ e, e ∈ s.events → e ∈ t.events) : t.FaultAgrees := by
  intro r hr
  rw [hsame.fault] at hr
  obtain ⟨hpc, hreport, hcause⟩ := hs r hr
  rw [hsame.pc, hsame.sp]
  exact ⟨hpc, hevents _ hreport, hcause⟩

/-- A state without a fault record agrees with it. -/
theorem State.faultAgrees_of_no_fault {s : State} (h : s.fault = none) : s.FaultAgrees := by
  intro r hr
  exact absurd (hr.symm.trans h) (Option.some_ne_none r)

/-- The entry of a fault agrees with its record when the cause holds. -/
theorem State.faultAgrees_faulted {s : State} {code : FaultCode} {w : Word} (hcause : s.FaultCause code w) :
    (s.faulted code w).FaultAgrees := by
  intro r hr
  obtain rfl := Option.some.inj hr
  refine ⟨rfl, List.mem_append_right _ (List.mem_singleton_self _), ?_⟩
  cases code with
  | invalidInstruction => exact wordWellFormed_eq_false_iff.mpr hcause
  | stackOverflow =>
    obtain ⟨hsp, nnn, hcall⟩ := hcause
    obtain rfl := encode_of_decodeWord hcall
    exact ⟨hsp, fieldGroup_wordNNN 0x2 nnn⟩
  | stackUnderflow =>
    obtain ⟨hsp, hret⟩ := hcause
    exact ⟨hsp, (encode_of_decodeWord hret).symm⟩

/-- A report is no Tone. -/
theorem State.TonesCount.faulted {s : State} (hs : s.TonesCount) (code : FaultCode) (w : Word) :
    (s.faulted code w).TonesCount := by
  intro n hn
  rw [State.faulted, State.emit_events, List.mem_append, List.mem_singleton] at hn
  obtain hold | hreport := hn
  · exact hs n hold
  · exact absurd hreport Event.noConfusion

theorem State.construct_inv (font : Font) (g : Config.Generator) : (State.construct font g).Inv where
  memory := State.construct_mem_wf font g
  record := State.faultAgrees_of_no_fault rfl
  tones := fun _ hn => absurd hn List.not_mem_nil

/-- A Step keeps the canonical form of memory. -/
theorem step_mem_wf {s t : State} (h : step s = .next t) (hs : s.mem.wf s.font = true) : t.mem.wf t.font = true := by
  obtain ⟨-, rfl⟩ | ⟨-, -, rfl⟩ | ⟨-, i, -, hexec⟩ := step_cases h
  · exact hs
  · exact hs
  · exact exec_mem_wf hexec hs

theorem step_keeps_inv {s t : State} (hs : s.Inv) (h : step s = .next t) : t.Inv := by
  by_cases hrunning : s.Running
  · have hmem := step_mem_wf h hs.memory
    obtain ⟨hfault, hevents⟩ | ⟨code, hcause, rfl⟩ := step_quiet_or_faults hrunning h
    · exact ⟨hmem, State.faultAgrees_of_no_fault hfault, fun n hn => hs.tones n (hevents ▸ hn)⟩
    · exact ⟨hmem, State.faultAgrees_faulted hcause, hs.tones.faulted code _⟩
  · obtain rfl := answer_unique (step_of_not_running hrunning) h
    exact hs

theorem tick_keeps_inv {s : State} (hs : s.Inv) : (tick s).Inv := by
  have hsame := SameMachine.tick s
  by_cases hpaused : s.paused = true
  · rwa [tick_of_paused hpaused]
  · rw [tick_of_not_paused (Bool.eq_false_of_not_eq_true hpaused)] at hsame ⊢
    refine ⟨hs.memory, hs.record.of_same hsame fun e he => ?events, fun n hn => ?tones⟩
    case events => exact List.mem_append_left _ (List.mem_append_left _ he)
    case tones =>
      simp only [List.mem_append] at hn
      obtain (hold | htone) | hredraw := hn
      · exact hs.tones n hold
      · split at htone
        case isTrue => exact absurd htone List.not_mem_nil
        case isFalse hst =>
          obtain rfl := Event.tone.inj (List.mem_singleton.mp htone)
          exact hst
      · split at hredraw
        case isTrue => exact absurd (List.mem_singleton.mp hredraw) Event.noConfusion
        case isFalse => exact absurd hredraw List.not_mem_nil

theorem hostReset_keeps_inv {s : State} (hs : s.Inv) : (hostReset s).Inv where
  memory := State.construct_mem_wf s.font s.generator
  record := State.faultAgrees_of_no_fault rfl
  tones := hs.tones

theorem setKeys_keeps_inv {s : State} (hs : s.Inv) (k : Vector Bool 16) : (s.setKeys k).Inv :=
  ⟨hs.memory, hs.record, hs.tones⟩

theorem bulkLoad_keeps_inv {s : State} (hs : s.Inv) (offset : Nat) (bytes : List Byte) :
    (bulkLoad offset bytes s).Inv := by
  have hmem := bulkLoad_wf offset bytes s hs.memory
  have hfont := (SameMachine.bulkLoad offset bytes s).font
  rw [← hfont] at hmem
  rw [bulkLoad_eq_setMem] at hmem ⊢
  exact ⟨hmem, hs.record, hs.tones⟩

theorem perform_keeps_inv {op : HostOp} {s t : State} (hs : s.Inv) (h : perform op s = .next t) : t.Inv := by
  cases op with
  | step => exact step_keeps_inv hs h
  | tick => exact Host.Outcome.next.inj h ▸ tick_keeps_inv hs
  | keyDown code =>
    obtain rfl := Host.Outcome.next.inj h
    rw [keyDown_eq_setKeys]
    exact setKeys_keeps_inv hs _
  | keyUp code =>
    obtain rfl := Host.Outcome.next.inj h
    rw [keyUp_eq_setKeys]
    exact setKeys_keeps_inv hs _
  | pause | resume =>
    obtain rfl := Host.Outcome.next.inj h
    exact ⟨hs.memory, hs.record, hs.tones⟩
  | reset => exact Host.Outcome.next.inj h ▸ hostReset_keeps_inv hs
  | bulkLoad offset bytes => exact Host.Outcome.next.inj h ▸ bulkLoad_keeps_inv hs offset bytes
  | loadRom bytes => exact Host.Outcome.next.inj h ▸ bulkLoad_keeps_inv hs _ bytes
  | snapshot => exact Host.Outcome.next.inj h ▸ hs

/-! ### The obligations -/

/-- Settles O47: a quiet Step of a running CORE leaves no record and no new event, and a fault's entry agrees with its own
record. -/
theorem stepKeepsInv : Obligations.StepKeepsInv := fun _ _ => step_keeps_inv

/-- Settles O49: by cases on the operation, and for a run by induction over it from the construction. -/
theorem hostOperationsKeepInv : Obligations.HostOperationsKeepInv :=
  ⟨fun _ _ _ => perform_keeps_inv, fun font g ops t =>
    performAll_keeps (fun _ _ _ => perform_keeps_inv) ops _ t (State.construct_inv font g)⟩

/-- Settles O48: nothing is listed in memory, recorded or emitted at construction. -/
theorem resetHasInv : Obligations.ResetHasInv :=
  ⟨State.construct_inv, State.construct_inv defaultFont 0⟩

/-- Settles O50: with a record a Step changes nothing, and no other operation but Reset writes the record. -/
theorem faultClearedOnlyByReset : Obligations.FaultClearedOnlyByReset := by
  intro op s t r hop hr h
  obtain ⟨-, hstep⟩ | ⟨hreset, -⟩ | hsame := perform_cases h
  · have hhalted : s.fault ≠ none := by rw [hr]; exact Option.some_ne_none r
    obtain rfl := answer_unique (step_of_halted hhalted) hstep
    exact hr
  · exact absurd hreset hop
  · exact hsame.fault.trans hr

/-- Settles O59: no operation writes the field, so no run does. -/
theorem fontStaysTheParameter : Obligations.FontStaysTheParameter :=
  ⟨fun _ _ _ => perform_font, fun font _ ops t =>
    performAll_keeps (P := fun s => s.font = font) (fun _ _ _ hs h => (perform_font h).trans hs) ops _ t rfl⟩

/-- Settles O60: no operation writes the generator, and only the RND of a Step counts a draw. -/
theorem machineKeepsItsOwnGenerator : Obligations.MachineKeepsItsOwnGenerator :=
  ⟨fun _ _ _ h => ⟨perform_generator h, perform_draws h⟩, fun _ g ops t =>
    performAll_keeps (P := fun s => s.generator = g) (fun _ _ _ hs h => (perform_generator h).trans hs) ops _ t rfl⟩

end Sys2Proof.Machine
end
